-- ==== Sys2Proof/Word.lean ====
section
/-! DEFINITION. The value types of CORE: the byte, the 17-bit transaction word, the 16-byte block and the
32-byte staging buffer, after rules R16, R17 and R80 of spec/00_scope.md and spec/30_encoding.md. -/

namespace Sys2Proof

/-- R16: an unsigned 8-bit value; every datum of CORE is a byte or a vector of bytes. -/
abbrev Byte := BitVec 8

/-- R80: one bus transaction, `we:addr:wdata`. -/
abbrev Word17 := BitVec 17

/-- R17: a block buffer `b[0..15]`; the 4×4 State is held in this order (`Block.cell`). -/
abbrev Block := Vector Byte 16

/-- R15: a key or IV staging buffer of 32 bytes. -/
abbrev Buf32 := Vector Byte 32

/-- Sixteen bytes `0x00`. -/
def Block.zero : Block := Vector.replicate 16 0

/-- Thirty-two bytes `0x00`. -/
def Buf32.zero : Buf32 := Vector.replicate 32 0

end Sys2Proof
end

