-- ==== Sys2Proof/Syntax.lean ====
section
/-! DEFINITION. The instructions of CORE: one constructor for each of the 23 rows of spec/opcode_table.json, after
R80 to R85 of spec/30_encoding.md. The "instructions" are the host's bus transactions (R2, R80). -/

namespace Sys2Proof

/-- A bus transaction as the decoder tells it apart (R81, R84, R85). No command has an operand field (R82). -/
inductive Instr where
  /-- `NOP`, opcode `0x00`, R211. -/
  | nop
  /-- `INIT`, opcode `0x01`, R212. -/
  | init
  /-- `DESTROY`, opcode `0x02`, R213. -/
  | destroy
  /-- `CLRERR`, opcode `0x03`, R214. -/
  | clrerr
  /-- `ABORT`, opcode `0x04`, R215. -/
  | abort
  /-- `ENC_START`, opcode `0x10`, R172. -/
  | encStart
  /-- `ENC_FINAL`, opcode `0x11`, R179. -/
  | encFinal
  /-- `DEC_START`, opcode `0x12`, R182. -/
  | decStart
  /-- `DEC_FINAL`, opcode `0x13`, R186. -/
  | decFinal
  /-- `CIPHER`, opcode `0x20`, R154. -/
  | cipher
  /-- `INVCIPHER`, opcode `0x21`, R155. -/
  | invcipher
  /-- `SUBBYTES`, opcode `0x30`, R122. -/
  | subbytes
  /-- `INVSUBBYTES`, opcode `0x31`, R124. -/
  | invsubbytes
  /-- `SHIFTROWS`, opcode `0x32`, R126. -/
  | shiftrows
  /-- `INVSHIFTROWS`, opcode `0x33`, R128. -/
  | invshiftrows
  /-- `MIXCOLUMNS`, opcode `0x34`, R131. -/
  | mixcolumns
  /-- `INVMIXCOLUMNS`, opcode `0x35`, R134. -/
  | invmixcolumns
  /-- `ADDROUNDKEY`, opcode `0x36`, R139. -/
  | addroundkey
  /-- `XTIME`, opcode `0x37`, R103. -/
  | xtime
  /-- `PUSH d`: a write of the payload byte `d` to `DIN`, R176. -/
  | push (d : Byte)
  /-- `POP`: a read of `DOUT`, R188. -/
  | pop
  /-- `WR a, d`: a write of `d` to address `a`, R217. -/
  | wr (a d : Byte)
  /-- `RD a`: a read of address `a`, R216. -/
  | rd (a : Byte)
  deriving DecidableEq, Repr

/-- R51: whether the transaction is a write (`we = 1`) or a read. -/
def Instr.isWrite : Instr → Bool
  | .nop | .init | .destroy | .clrerr | .abort => true
  | .encStart | .encFinal | .decStart | .decFinal => true
  | .cipher | .invcipher => true
  | .subbytes | .invsubbytes | .shiftrows | .invshiftrows => true
  | .mixcolumns | .invmixcolumns | .addroundkey | .xtime => true
  | .push _ | .wr _ _ => true
  | .pop | .rd _ => false

end Sys2Proof
end

