-- ==== Sys2Proof/WellFormed.lean ====
section
/-! DEFINITION. Which terms of `Instr` stand for a transaction in its one canonical form: the `REG` rows are tested
last (R81), so `WR` and `RD` never carry an address that a `CMD` or `PORT` row takes first. -/

namespace Sys2Proof

/-- R84: the 19 command opcodes. -/
def commandOpcodes : List Byte :=
  [0x00#8, 0x01#8, 0x02#8, 0x03#8, 0x04#8, 0x10#8, 0x11#8, 0x12#8, 0x13#8, 0x20#8, 0x21#8,
   0x30#8, 0x31#8, 0x32#8, 0x33#8, 0x34#8, 0x35#8, 0x36#8, 0x37#8]

/-- R81, R85: `WR a, d` is the reading of a word only where `a` is not `DIN` and, at `CMD`, `d` is no opcode of R84
(then it is the illegal command of R86); `RD a` only where `a` is not `DOUT`. -/
def Instr.wellFormed : Instr → Bool
  | .wr a d => !(a == 0x09#8) && !(a == 0x00#8 && commandOpcodes.contains d)
  | .rd a => !(a == 0x0A#8)
  | .nop | .init | .destroy | .clrerr | .abort => true
  | .encStart | .encFinal | .decStart | .decFinal => true
  | .cipher | .invcipher => true
  | .subbytes | .invsubbytes | .shiftrows | .invshiftrows => true
  | .mixcolumns | .invmixcolumns | .addroundkey | .xtime => true
  | .push _ | .pop => true

end Sys2Proof
end

