-- ==== Sys2Proof/Decode.lean ====
section
/-! DEFINITION. The decoder of the 17-bit transaction word and its encoder, from R80 to R86 of spec/30_encoding.md.
Every 17-bit word has a meaning (R86), so the only rejection is of a number that is no 17-bit word. -/

namespace Sys2Proof

/-- R80: bit `[16]`, 1 for a write. -/
def Word17.we (w : Word17) : Bool := w.getLsbD 16

/-- R80: bits `[15:8]`, the register address. -/
def Word17.addr (w : Word17) : Byte := w.extractLsb' 8 8

/-- R80: bits `[7:0]`, the byte written; ignored on a read. -/
def Word17.wdata (w : Word17) : Byte := w.extractLsb' 0 8

/-- R84: the command of an opcode, none for the 237 illegal ones (R86). -/
def commandOf (op : Byte) : Option Instr :=
  match op.toNat with
  | 0x00 => some .nop
  | 0x01 => some .init
  | 0x02 => some .destroy
  | 0x03 => some .clrerr
  | 0x04 => some .abort
  | 0x10 => some .encStart
  | 0x11 => some .encFinal
  | 0x12 => some .decStart
  | 0x13 => some .decFinal
  | 0x20 => some .cipher
  | 0x21 => some .invcipher
  | 0x30 => some .subbytes
  | 0x31 => some .invsubbytes
  | 0x32 => some .shiftrows
  | 0x33 => some .invshiftrows
  | 0x34 => some .mixcolumns
  | 0x35 => some .invmixcolumns
  | 0x36 => some .addroundkey
  | 0x37 => some .xtime
  | _ => none

/-- R81: the `CMD` rows first, then the two `PORT` rows, then `REG`. An illegal opcode (R86) is left to `WR 0x00`,
whose meaning raises `E_ILLCMD`. DEDUCED, safe: notes/assumptions/9.md. -/
def decode (w : Word17) : Instr :=
  if w.we then
    if w.addr = 0x00#8 then (commandOf w.wdata).getD (.wr 0x00#8 w.wdata)
    else if w.addr = 0x09#8 then .push w.wdata
    else .wr w.addr w.wdata
  else if w.addr = 0x0A#8 then .pop
  else .rd w.addr

/-- Why a number is no transaction. -/
inductive DecodeError where
  /-- It has a bit above bit 16: R80 gives a word 17 bits. -/
  | widerThan17Bits
  deriving DecidableEq, Repr

/-- The decoder on any number of bits: R80's 17 bits or a rejection by name. -/
def decodeBits (w : Nat) : Except DecodeError Instr :=
  if w < 2 ^ 17 then .ok (decode (BitVec.ofNat 17 w)) else .error .widerThan17Bits

/-- R80: the word `we:addr:wdata`. -/
def transactionWord (write : Bool) (addr wdata : Byte) : Word17 :=
  BitVec.ofBool write ++ addr ++ wdata

/-- The word of an instruction (R84, R85). The byte that a read ignores (R82) is written `0x00`. -/
def encode : Instr → Word17
  | .nop => transactionWord true 0x00#8 0x00#8
  | .init => transactionWord true 0x00#8 0x01#8
  | .destroy => transactionWord true 0x00#8 0x02#8
  | .clrerr => transactionWord true 0x00#8 0x03#8
  | .abort => transactionWord true 0x00#8 0x04#8
  | .encStart => transactionWord true 0x00#8 0x10#8
  | .encFinal => transactionWord true 0x00#8 0x11#8
  | .decStart => transactionWord true 0x00#8 0x12#8
  | .decFinal => transactionWord true 0x00#8 0x13#8
  | .cipher => transactionWord true 0x00#8 0x20#8
  | .invcipher => transactionWord true 0x00#8 0x21#8
  | .subbytes => transactionWord true 0x00#8 0x30#8
  | .invsubbytes => transactionWord true 0x00#8 0x31#8
  | .shiftrows => transactionWord true 0x00#8 0x32#8
  | .invshiftrows => transactionWord true 0x00#8 0x33#8
  | .mixcolumns => transactionWord true 0x00#8 0x34#8
  | .invmixcolumns => transactionWord true 0x00#8 0x35#8
  | .addroundkey => transactionWord true 0x00#8 0x36#8
  | .xtime => transactionWord true 0x00#8 0x37#8
  | .push d => transactionWord true 0x09#8 d
  | .pop => transactionWord false 0x0A#8 0x00#8
  | .wr a d => transactionWord true a d
  | .rd a => transactionWord false a 0x00#8

/-- The host's fixed name: the instruction read from a word whose bits are `w`, bit 0 the least significant, as
spec/opcode_table.json numbers them. A transaction has one length (R80), so the number of bits the table gives the
row is not needed. -/
def decodeTableWord (_nbits w : Nat) : Option Instr := (decodeBits w).toOption

end Sys2Proof
end

