-- ==== Sys2Proof/Machine/State.lean ====
section
/-! DEFINITION. The state of CORE: every element of the list of R21 (spec/10_state.md), the bus's last answer and
the host's pending events; the reasons a step can stop (none does); and the state after reset (R42). -/

namespace Sys2Proof.Machine

/-- R22: the only sequencing state of CORE. DESIGN CHOICE, safe: four names and not a 2-bit word,
notes/assumptions/14.md. -/
inductive Phase where
  /-- No cipher instance exists. -/
  | unconf
  /-- An instance exists and no call is in progress. -/
  | ready
  /-- An Encrypt call is in progress. -/
  | enc
  /-- A Decrypt call is in progress. -/
  | dec
  deriving DecidableEq, Repr

/-- What the outside does to CORE (R20): a bus transaction, given by its word (R51, R80), or the reset input
(R270: an event between two transactions). DEDUCED, safe: notes/assumptions/4.md. -/
inductive HostEvent where
  | bus (w : Word17)
  | reset
  deriving DecidableEq, Repr

/-- Reasons the machine stops with a fault: none. R86: every 17-bit word has a defined outcome; R247: an error is a
refused transaction, after which CORE goes on; R280: every transaction completes. DEDUCED, safe:
notes/assumptions/12.md. -/
inductive Fault where
  deriving DecidableEq, Repr

/-- Reasons an instruction has no meaning. -/
inductive Refusal where
  /-- Raised by an arm of `exec` whose instruction has no meaning yet; no arm does. Safe: the run stops. -/
  | notModelled (mnemonic : String)
  deriving DecidableEq, Repr

/-- R21: the architectural state, and two fields of the model's own (`rdata`, `pending`). -/
structure State where
  /-- R22, `PHASE`, 2 bits. -/
  phase : Phase
  /-- R23, `ERR`. -/
  err : Byte
  /-- R24, `ERRINFO`. -/
  errinfo : Byte
  /-- R25, `KLEN`. -/
  klen : Byte
  /-- R25, `IVLEN`. -/
  ivlen : Byte
  /-- R26, `KEY[0..31]`. -/
  key : Buf32
  /-- R27, `IV[0..31]`. -/
  iv : Buf32
  /-- R28, `NR`. -/
  nr : Byte
  /-- R31, `S[0..15]`, the working State, in buffer order. -/
  sReg : Block
  /-- R32, `F[0..15]`, the feedback register, in buffer order. -/
  fReg : Block
  /-- R33, `IB[0..15]`, the input block buffer. -/
  ib : Block
  /-- R33, `ICNT`, 4 bits, `0..15`. -/
  icnt : Fin 16
  /-- R34, `OB[0..15]`, the output block buffer. -/
  ob : Block
  /-- R34, `OLEN`, `0..16`. -/
  olen : Fin 17
  /-- R34, `ORD`, `0..16`. -/
  ord : Fin 17
  /-- R35, `ZSEEN`, 1 bit. -/
  zseen : Bool
  /-- The model's own: `rdata` of the last transaction (R51); none after a write, where it is not driven. DESIGN CHOICE,
  unsafe: notes/assumptions/3.md. -/
  rdata : Option Byte
  /-- The model's own: the host's events that CORE has not met yet, the next one first (R20, R37). DESIGN CHOICE, safe:
  notes/assumptions/1.md. -/
  pending : List HostEvent
  deriving DecidableEq, Repr

/-- R42, R270: CORE right after reset; nothing is on the bus and no event is pending. -/
def State.reset : State where
  phase := .unconf
  err := 0x00#8
  errinfo := 0x00#8
  klen := 0x00#8
  ivlen := 0x00#8
  key := Buf32.zero
  iv := Buf32.zero
  nr := 0x00#8
  sReg := Block.zero
  fReg := Block.zero
  ib := Block.zero
  icnt := 0
  ob := Block.zero
  olen := 0
  ord := 0
  zseen := false
  rdata := none
  pending := []

end Sys2Proof.Machine
end

