-- ==== Sys2Proof/Config.lean ====
section
/-! DEFINITION. The parameters a given CORE fixes (R12, R14, R41 and the table "Named parameters a model takes
as arguments" of spec/92_eei_decisions.md), as a structure, and the contract the spec puts on them. The values
CORE takes are `Sys2Proof.Machine.coreConfig` in Machine/Tables.lean. -/

namespace Sys2Proof

/-- R8: the three legal key lengths. -/
inductive KeyLen where
  /-- 16 bytes. -/
  | k16
  /-- 24 bytes. -/
  | k24
  /-- 32 bytes. -/
  | k32
  deriving DecidableEq, Repr

/-- R8: the length in bytes. -/
def KeyLen.bytes : KeyLen → Nat
  | .k16 => 16
  | .k24 => 24
  | .k32 => 32

/-- R41: the parameters of CORE. They are fixed for a given CORE and are no part of its state. -/
structure Config where
  /-- R12, `SBOX`: the forward substitution table. -/
  sbox : Byte → Byte
  /-- R12, `INV_SBOX`: the inverse substitution table. -/
  invSbox : Byte → Byte
  /-- R14, `KEYMAP`: the key bytes `KEY[0..KLEN-1]` to the key matrix. -/
  keymap : List Byte → Block
  /-- R14, `IVMAP`: the IV bytes `IV[0..IVLEN-1]` to the IV matrix. -/
  ivmap : List Byte → Block
  /-- R10, `NR`: the round count of a key length. -/
  nr : KeyLen → Byte

/-- What the spec says of the parameters whatever their values: the contract of the tables (R104), the range of
the round counts (R10), and the two maps for 16 bytes, which the source fixes (R14). -/
structure Config.Lawful (c : Config) : Prop where
  invSbox_sbox : ∀ x, c.invSbox (c.sbox x) = x
  nr_range : ∀ l : KeyLen, c.nr l = 10#8 ∨ c.nr l = 12#8 ∨ c.nr l = 14#8
  keymap_16 : ∀ b : Block, c.keymap b.toList = b
  ivmap_16 : ∀ b : Block, c.ivmap b.toList = b

end Sys2Proof
end

