-- ==== Sys2Proof/Machine/Blocks.lean ====
section
/-! DEFINITION. The block as a buffer and as a 4×4 matrix (R13, R17, R57): the one place where the layout is fixed.
A matrix is held as its buffer `flat(M)`, so `load` and `flat` are the two readings of one value. -/

namespace Sys2Proof

/-- The buffer whose byte `i` is `f i`. -/
def Block.build (f : Fin 16 → Byte) : Block :=
  #v[f 0, f 1, f 2, f 3, f 4, f 5, f 6, f 7, f 8, f 9, f 10, f 11, f 12, f 13, f 14, f 15]

/-- R17: the place in the buffer of row `r`, column `c`, column-major. DESIGN CHOICE (R13, D3), unsafe for
interoperability only: notes/assumptions/8.md. -/
def Block.index (r c : Fin 4) : Fin 16 := ⟨r.val + 4 * c.val, by omega⟩

/-- R17: `load(b)[r][c] = b[r + 4*c]`. -/
def Block.cell (b : Block) (r c : Fin 4) : Byte := b[Block.index r c]

/-- R17: `flat(M)[i] = M[i mod 4][i div 4]`. -/
def Block.ofCells (m : Fin 4 → Fin 4 → Byte) : Block :=
  Block.build fun i => m ⟨i.val % 4, by omega⟩ ⟨i.val / 4, by omega⟩

/-- R17: a column `[c0, c1, c2, c3]` of the matrix. -/
structure Column where
  c0 : Byte
  c1 : Byte
  c2 : Byte
  c3 : Byte
  deriving DecidableEq, Repr

/-- The byte of a column in row `r`. -/
def Column.row (c : Column) (r : Fin 4) : Byte :=
  match r with
  | 0 => c.c0
  | 1 => c.c1
  | 2 => c.c2
  | 3 => c.c3

/-- R17: column `c` of the matrix, `[M[0][c], M[1][c], M[2][c], M[3][c]]`. -/
def Block.column (b : Block) (c : Fin 4) : Column :=
  ⟨b.cell 0 c, b.cell 1 c, b.cell 2 c, b.cell 3 c⟩

/-- The matrix whose column `c` is `f c`. -/
def Block.ofColumns (f : Fin 4 → Column) : Block := Block.ofCells fun r c => (f c).row r

/-- Byte `i` with byte `i`, XORed (R138, R178). -/
def Block.xor (a b : Block) : Block := Block.build fun i => a[i] ^^^ b[i]

end Sys2Proof
end

