-- ==== Sys2Proof/Machine/Ops.lean ====
section
/-! DEFINITION. The operations every meaning is built from: the views of the state (R29, R30, R34), what a
transaction leaves on the bus (R51), taking an error and returning from one (R241, R247, R250 of
spec/60_exceptions.md), the frame of a command (R54, R83), and answering one event of the host (R20). The parameters
of CORE are an argument of what depends on them (R41). -/

namespace Sys2Proof.Machine

/-- The outcome of a transaction of CORE. -/
abbrev Result := Host.Outcome State Fault Refusal

/-! ### Views -/

/-- R29: `KM = KEYMAP(KEY[0..KLEN-1])`, meaningful where an instance exists. -/
def State.km (cfg : Config) (s : State) : Block := cfg.keymap (s.key.toList.take s.klen.toNat)

/-- R30: `IVM = IVMAP(IV[0..IVLEN-1])`, meaningful where an instance exists. -/
def State.ivm (cfg : Config) (s : State) : Block := cfg.ivmap (s.iv.toList.take s.ivlen.toNat)

/-- R34: `OCNT = OLEN - ORD`, the number of output bytes still unread. The difference of natural numbers: DESIGN
CHOICE, safe, notes/assumptions/14.md. -/
def State.ocnt (s : State) : Nat := s.olen.val - s.ord.val

/-- R34: `OCNT` as the byte of its register. -/
def State.ocntByte (s : State) : Byte := BitVec.ofNat 8 s.ocnt

/-- R33: `ICNT` as the byte of its register, bits `[7:4]` zero (R52). -/
def State.icntByte (s : State) : Byte := BitVec.ofNat 8 s.icnt.val

/-- R8: the key length that is `n` bytes, none where `n` is not 16, 24 or 32. -/
def keyLenOf (n : Nat) : Option KeyLen :=
  if n = 16 then some .k16 else if n = 24 then some .k24 else if n = 32 then some .k32 else none

/-! ### The bus -/

/-- R51: a write leaves `rdata` undriven. -/
def State.noAnswer (s : State) : State := { s with rdata := none }

/-- R51: a read answers `v`. -/
def State.answer (s : State) (v : Byte) : State := { s with rdata := some v }

/-! ### Errors: entry and return -/

/-- R241: the errors of CORE. -/
inductive Error where
  /-- `INIT` with `KLEN` not 16, 24 or 32. -/
  | keylen
  /-- `INIT` with `IVLEN` other than a legal `KLEN`. -/
  | ivlen
  /-- `DEC_FINAL` with a part-filled block. -/
  | inlen
  /-- A write to `CMD` of no opcode of R84. -/
  | illcmd
  /-- A command that is not legal in the current phase. -/
  | phase
  /-- An access that the table of R52 does not allow. -/
  | access
  /-- The operation would overwrite unread output. -/
  | overrun
  /-- A `POP` with nothing to pop. -/
  | underrun
  deriving DecidableEq, Repr

/-- R241: the value of `ERR` for an error. -/
def errorCode : Error → Byte
  | .keylen => 0x01#8
  | .ivlen => 0x02#8
  | .inlen => 0x03#8
  | .illcmd => 0x10#8
  | .phase => 0x11#8
  | .access => 0x12#8
  | .overrun => 0x13#8
  | .underrun => 0x14#8

/-- R247, the error action: the first error since the last clear is recorded, and nothing else changes. -/
def State.raise (s : State) (e : Error) (info : Byte) : State :=
  if s.err = 0x00#8 then { s with err := errorCode e, errinfo := info } else s

/-- R250, the return from an error (`CLRERR`, R214). -/
def State.clearError (s : State) : State := { s with err := 0x00#8, errinfo := 0x00#8 }

/-- R42, R213, R270: every state element at its reset value; the host's events are the host's and stay. -/
def State.wipe (s : State) : State := { State.reset with pending := s.pending }

/-! ### Updates that several rules share -/

/-- The working State replaced, all 16 cells at once (R120). -/
def State.setS (s : State) (b : Block) : State := { s with sReg := b }

/-- R22: the phase. -/
def State.setPhase (s : State) (p : Phase) : State := { s with phase := p }

/-- R172, R215: both block buffers, their counts and `ZSEEN` cleared. -/
def State.dropBuffers (s : State) : State :=
  { s with ib := Block.zero, icnt := 0, ob := Block.zero, olen := 0, ord := 0, zseen := false }

/-! ### The frame of a write and of a command -/

/-- R54, R249: a write is dropped while `ERR` is not 0, else it does `body`; it drives no `rdata`. -/
def guardedWrite (body : State → State) (s : State) : Result :=
  if s.err = 0x00#8 then .next (body s.noAnswer) else .next s.noAnswer

/-- R83: a write of the opcode `op`, legal in the phases `legal`, to `CMD`. The phase is tested before the command's
own checks (R244). -/
def command (op : Byte) (legal : List Phase) (body : State → State) : State → Result :=
  guardedWrite fun s => if s.phase ∈ legal then body s else s.raise .phase op

/-- R83, R86: a write to `CMD` of a byte that is no opcode. -/
def illegalCommand (op : Byte) : State → Result :=
  guardedWrite fun s => s.raise .illcmd op

/-! ### The host's events -/

/-- The host's event taken off the front. -/
def State.withPending (s : State) (rest : List HostEvent) : State := { s with pending := rest }

/-- R20, R62: one event, the next in the host's order, is answered whole, a transaction by `run`; without one CORE
does not act. R270: the reset input puts every element at its reset value. DEDUCED, safe: notes/assumptions/2.md. -/
def answerEvent (run : Instr → State → Result) (s : State) : Result :=
  match s.pending with
  | [] => .next s
  | .reset :: rest => .next (s.withPending rest).wipe
  | .bus w :: rest => run (decode w) (s.withPending rest)

end Sys2Proof.Machine
end

