-- ==== Sys2Proof/Machine/Flags.lean ====
section
/-! DEFINITION. The flags of CORE and the `STATUS` view made of them (R36, R38 of spec/10_state.md). `ZSEEN` alone is
stored; no other arithmetic flag exists. -/

namespace Sys2Proof.Machine

/-- R22: the number of a phase, as `STATUS[1:0]` shows it. -/
def phaseCode : Phase → BitVec 2
  | .unconf => 0
  | .ready => 1
  | .enc => 2
  | .dec => 3

/-- R36: `ERRF`, `STATUS[2]`. -/
def State.errf (s : State) : Bool := !(s.err == 0x00#8)

/-- R36: `OVALID`, `STATUS[4]`. -/
def State.ovalid (s : State) : Bool := !(s.ocnt == 0)

/-- R36: `IPART`, `STATUS[5]`. -/
def State.ipart (s : State) : Bool := !(s.icnt == 0)

/-- R36: the `STATUS` view; bits `[7:6]` are reserved and zero. -/
def State.status (s : State) : Byte :=
  0#2 ++ BitVec.ofBool s.ipart ++ BitVec.ofBool s.ovalid ++ BitVec.ofBool s.zseen ++ BitVec.ofBool s.errf
    ++ phaseCode s.phase

end Sys2Proof.Machine
end

