-- ==== Sys2Proof/Machine/Operands.lean ====
section
/-! DEFINITION. The register space (R50, R52 of spec/20_memory.md): which register an address names, what a plain
read of it gives, and in which phase a plain write stores. `CMD`, `DIN` and `DOUT` are ports; the meanings that
serve them are in Machine/Access.lean and Machine/Stream.lean. -/

namespace Sys2Proof.Machine

/-- R52: the names of the map. -/
inductive Reg where
  | cmd
  | status
  | err
  | errinfo
  | klen
  | ivlen
  | nr
  | icnt
  | ocnt
  | din
  | dout
  | s (i : Fin 16)
  | f (i : Fin 16)
  | key (j : Fin 32)
  | iv (j : Fin 32)
  | reserved
  deriving DecidableEq, Repr

/-- R52, R58: the register at an address. `0x0B..0x0F`, `0x30..0x3F` and `0x80..0xFF` are reserved (R56). -/
def regAt (a : Byte) : Reg :=
  match a.toNat with
  | 0x00 => .cmd
  | 0x01 => .status
  | 0x02 => .err
  | 0x03 => .errinfo
  | 0x04 => .klen
  | 0x05 => .ivlen
  | 0x06 => .nr
  | 0x07 => .icnt
  | 0x08 => .ocnt
  | 0x09 => .din
  | 0x0A => .dout
  | n =>
    if 0x10 ≤ n ∧ n ≤ 0x1F then .s (Fin.ofNat 16 (n - 0x10))
    else if 0x20 ≤ n ∧ n ≤ 0x2F then .f (Fin.ofNat 16 (n - 0x20))
    else if 0x40 ≤ n ∧ n ≤ 0x5F then .key (Fin.ofNat 32 (n - 0x40))
    else if 0x60 ≤ n ∧ n ≤ 0x7F then .iv (Fin.ofNat 32 (n - 0x60))
    else .reserved

/-- R52, the read column, less the port `DOUT`: the byte read, none where a read is not allowed. -/
def readReg (r : Reg) (s : State) : Option Byte :=
  match r with
  | .cmd => none
  | .status => some s.status
  | .err => some s.err
  | .errinfo => some s.errinfo
  | .klen => some s.klen
  | .ivlen => some s.ivlen
  | .nr => some s.nr
  | .icnt => some s.icntByte
  | .ocnt => some s.ocntByte
  | .din => none
  | .dout => none
  | .s i => some s.sReg[i]
  | .f i => some s.fReg[i]
  | .key _ => none
  | .iv j => some s.iv[j]
  | .reserved => none

/-- R52, the write column, less the ports `CMD` and `DIN`: the state with the byte stored, none where a write is not
allowed in the current phase. -/
def writeReg (r : Reg) (v : Byte) (s : State) : Option State :=
  match r with
  | .klen => if s.phase = .unconf then some { s with klen := v } else none
  | .ivlen => if s.phase = .unconf then some { s with ivlen := v } else none
  | .s i => if s.phase = .unconf ∨ s.phase = .ready then some { s with sReg := s.sReg.set i v } else none
  | .key j => if s.phase = .unconf then some { s with key := s.key.set j v } else none
  | .iv j => if s.phase = .unconf then some { s with iv := s.iv.set j v } else none
  | .cmd | .status | .err | .errinfo | .nr | .icnt | .ocnt | .din | .dout | .f _ | .reserved => none

end Sys2Proof.Machine
end

