-- ==== Sys2Proof/Machine/Lifecycle.lean ====
section
/-! DEFINITION. The instance's lifecycle: construction, its end, the error return and the abandoning of a call (R210
to R215 of spec/44_lifecycle.md). -/

namespace Sys2Proof.Machine

/-- R211, `NOP`. -/
def execNop (s : State) : Result := command 0x00#8 [.unconf, .ready, .enc, .dec] (fun s => s) s

/-- R212: the key length is tested before the IV length (R244). -/
def initBody (cfg : Config) (s : State) : State :=
  match keyLenOf s.klen.toNat with
  | none => s.raise .keylen s.klen
  | some l =>
    if s.ivlen = s.klen then { s with nr := cfg.nr l, phase := .ready }
    else s.raise .ivlen s.ivlen

/-- R212, `INIT`, for any parameters. -/
def execInitWith (cfg : Config) (s : State) : Result := command 0x01#8 [.unconf] (initBody cfg) s

/-- R212, `INIT`. -/
def execInit (s : State) : Result := execInitWith coreConfig s

/-- R213, `DESTROY`: executes in every phase and while `ERR` is not 0. -/
def execDestroy (s : State) : Result := .next s.wipe

/-- R214, `CLRERR`: executes in every phase and while `ERR` is not 0. -/
def execClrerr (s : State) : Result := .next s.noAnswer.clearError

/-- R215, `ABORT`. -/
def execAbort (s : State) : Result :=
  command 0x04#8 [.ready, .enc, .dec] (fun s => s.dropBuffers.setPhase .ready) s

end Sys2Proof.Machine
end

