-- ==== Sys2Proof/Machine/Field.lean ====
section
/-! DEFINITION. The finite-field primitive (spec/40_field_and_tables.md) and the command XTIME. `gmul` and
`sboxAffine` serve only to state the laws of R102 and R107; no meaning calls them (R100, R107). -/

namespace Sys2Proof.Machine

/-- R101: doubling in GF(2^8). -/
def xtime (b : Byte) : Byte := if b.getLsbD 7 then (b <<< 1) ^^^ 0x1B#8 else b <<< 1

/-- Multiplication of polynomials over GF(2), before reduction: the XOR of `a * x^k` over the bits `k` of `b`. -/
def carrylessMul (a b : Byte) : Nat :=
  (List.range 8).foldl (fun acc k => if b.getLsbD k then acc ^^^ (a.toNat <<< k) else acc) 0

/-- R100: multiplication modulo `x^8+x^4+x^3+x+1`, reducing from `x^14` down to `x^8`. -/
def gmul (a b : Byte) : Byte :=
  BitVec.ofNat 8 <| (List.range 7).foldl
    (fun p k => if p.testBit (14 - k) then p ^^^ (0x11B <<< (6 - k)) else p) (carrylessMul a b)

/-- R107: the affine map of the table's construction, with constant `0x63`. -/
def sboxAffine (y : Byte) : Byte :=
  y ^^^ y.rotateRight 4 ^^^ y.rotateRight 5 ^^^ y.rotateRight 6 ^^^ y.rotateRight 7 ^^^ 0x63#8

/-- R103: every byte of the working State doubled, each from its own old value. -/
def xtimeBody (s : State) : State := s.setS (Block.build fun i => xtime s.sReg[i])

/-- R103, `XTIME`. -/
def execXtime (s : State) : Result := command 0x37#8 [.unconf, .ready] xtimeBody s

end Sys2Proof.Machine
end

