-- ==== Sys2Proof/Machine/Transforms.lean ====
section
/-! DEFINITION. The state transforms and the round key application as pure functions on a State, and the commands
that apply them to the working State (spec/41_transforms.md). Every function reads only the old State (R120). -/

namespace Sys2Proof.Machine

/-! ### Pure functions -/

/-- R121: `SubBytes(M)[r][c] = Sbox[M[r][c]]`. -/
def subBytes (cfg : Config) (m : Block) : Block := Block.ofCells fun r c => cfg.sbox (m.cell r c)

/-- R123: `InvSubBytes(M)[r][c] = InvSbox[M[r][c]]`. -/
def invSubBytes (cfg : Config) (m : Block) : Block := Block.ofCells fun r c => cfg.invSbox (m.cell r c)

/-- R125: `ShiftRows(M)[r][c] = M[r][(c + r) mod 4]`; the sum of two `Fin 4` is taken modulo 4. -/
def shiftRows (m : Block) : Block := Block.ofCells fun r c => m.cell r (c + r)

/-- R127: `InvShiftRows(M)[r][c] = M[r][(c - r) mod 4]`; the difference of two `Fin 4` is taken modulo 4. -/
def invShiftRows (m : Block) : Block := Block.ofCells fun r c => m.cell r (c - r)

/-- R129: one column; every right-hand side uses the old column (`90_conflicts.md` C3). -/
def mixColumn (c : Column) : Column :=
  let t := c.c0 ^^^ c.c1 ^^^ c.c2 ^^^ c.c3
  { c0 := c.c0 ^^^ t ^^^ xtime (c.c0 ^^^ c.c1)
    c1 := c.c1 ^^^ t ^^^ xtime (c.c1 ^^^ c.c2)
    c2 := c.c2 ^^^ t ^^^ xtime (c.c2 ^^^ c.c3)
    c3 := c.c3 ^^^ t ^^^ xtime (c.c3 ^^^ c.c0) }

/-- R130: `MixColumn` on each column. -/
def mixColumns (m : Block) : Block := Block.ofColumns fun c => mixColumn (m.column c)

/-- R132: the pre-mixing step on the old column, then `MixColumn`. -/
def invMixColumn (c : Column) : Column :=
  let u := xtime (xtime (c.c0 ^^^ c.c2))
  let v := xtime (xtime (c.c1 ^^^ c.c3))
  mixColumn ⟨c.c0 ^^^ u, c.c1 ^^^ v, c.c2 ^^^ u, c.c3 ^^^ v⟩

/-- R133: `InvMixColumn` on each column. -/
def invMixColumns (m : Block) : Block := Block.ofColumns fun c => invMixColumn (m.column c)

/-- R138: `AddRoundKey(M, K)[r][c] = M[r][c] ^ K[r][c]`. -/
def addRoundKey (m k : Block) : Block := Block.ofCells fun r c => m.cell r c ^^^ k.cell r c

/-! ### Commands -/

/-- R122, `SUBBYTES`, for any parameters. -/
def execSubbytesWith (cfg : Config) (s : State) : Result :=
  command 0x30#8 [.unconf, .ready] (fun s => s.setS (subBytes cfg s.sReg)) s

/-- R122, `SUBBYTES`. -/
def execSubbytes (s : State) : Result := execSubbytesWith coreConfig s

/-- R124, `INVSUBBYTES`, for any parameters. -/
def execInvsubbytesWith (cfg : Config) (s : State) : Result :=
  command 0x31#8 [.unconf, .ready] (fun s => s.setS (invSubBytes cfg s.sReg)) s

/-- R124, `INVSUBBYTES`. -/
def execInvsubbytes (s : State) : Result := execInvsubbytesWith coreConfig s

/-- R126, `SHIFTROWS`. -/
def execShiftrows (s : State) : Result :=
  command 0x32#8 [.unconf, .ready] (fun s => s.setS (shiftRows s.sReg)) s

/-- R128, `INVSHIFTROWS`. -/
def execInvshiftrows (s : State) : Result :=
  command 0x33#8 [.unconf, .ready] (fun s => s.setS (invShiftRows s.sReg)) s

/-- R131, `MIXCOLUMNS`. -/
def execMixcolumns (s : State) : Result :=
  command 0x34#8 [.unconf, .ready] (fun s => s.setS (mixColumns s.sReg)) s

/-- R134, `INVMIXCOLUMNS`. -/
def execInvmixcolumns (s : State) : Result :=
  command 0x35#8 [.unconf, .ready] (fun s => s.setS (invMixColumns s.sReg)) s

/-- R139, `ADDROUNDKEY`, for any parameters: needs a key matrix, so legal in `READY` only. -/
def execAddroundkeyWith (cfg : Config) (s : State) : Result :=
  command 0x36#8 [.ready] (fun s => s.setS (addRoundKey s.sReg (s.km cfg))) s

/-- R139, `ADDROUNDKEY`. -/
def execAddroundkey (s : State) : Result := execAddroundkeyWith coreConfig s

end Sys2Proof.Machine
end

