-- ==== Sys2Proof/Machine/Pipeline.lean ====
section
/-! DEFINITION. The two round pipelines as pure functions and the commands that run them on the working State
(spec/42_block_pipeline.md). One key matrix serves every round (R138, R140). -/

namespace Sys2Proof.Machine

/-- R151: a full round of the forward pipeline. -/
def fullRound (cfg : Config) (k x : Block) : Block :=
  addRoundKey (mixColumns (shiftRows (subBytes cfg x))) k

/-- R151: the final round, without `MixColumns`. -/
def finalRound (cfg : Config) (k x : Block) : Block := addRoundKey (shiftRows (subBytes cfg x)) k

/-- R151: `Cipher(M, K, n)`, for `n ≥ 1` (R150). At `n = 0`, which R150 leaves open and no run of a lawful CORE
reaches, it is the value of `n = 1`: DESIGN CHOICE, unsafe there, notes/assumptions/16.md. -/
def cipher (cfg : Config) (m k : Block) (n : Nat) : Block :=
  finalRound cfg k ((fullRound cfg k)^[n - 1] (addRoundKey m k))

/-- R153: a full round of the inverse pipeline. -/
def invRound (cfg : Config) (k x : Block) : Block :=
  invMixColumns (addRoundKey (invSubBytes cfg (invShiftRows x)) k)

/-- R153: the final round of the inverse pipeline, without `InvMixColumns`. -/
def invFinalRound (cfg : Config) (k x : Block) : Block :=
  addRoundKey (invSubBytes cfg (invShiftRows x)) k

/-- R153: `InvCipher(M, K, n)`. The first `AddRoundKey` is a DESIGN CHOICE (D16), unsafe for `INVCIPHER` alone:
notes/assumptions/10.md. At `n = 0`, which R150 leaves open and no run of a lawful CORE reaches, it is the value of `n
= 1`: DESIGN CHOICE, unsafe there, notes/assumptions/16.md. -/
def invCipher (cfg : Config) (m k : Block) (n : Nat) : Block :=
  invFinalRound cfg k ((invRound cfg k)^[n - 1] (addRoundKey m k))

/-- R154, `CIPHER`, for any parameters. -/
def execCipherWith (cfg : Config) (s : State) : Result :=
  command 0x20#8 [.ready] (fun s => s.setS (cipher cfg s.sReg (s.km cfg) s.nr.toNat)) s

/-- R154, `CIPHER`. -/
def execCipher (s : State) : Result := execCipherWith coreConfig s

/-- R155, `INVCIPHER`, for any parameters. -/
def execInvcipherWith (cfg : Config) (s : State) : Result :=
  command 0x21#8 [.ready] (fun s => s.setS (invCipher cfg s.sReg (s.km cfg) s.nr.toNat)) s

/-- R155, `INVCIPHER`. -/
def execInvcipher (s : State) : Result := execInvcipherWith coreConfig s

end Sys2Proof.Machine
end

