-- ==== Sys2Proof/Machine/Stream.lean ====
section
/-! DEFINITION. The OFB streaming mode as the host drives it: the start and end of a call, the two byte ports, and
the processing of a block (R172 to R190 of spec/43_ofb_stream.md). -/

namespace Sys2Proof.Machine

/-! ### Starting a call -/

/-- R172, R182: refused while output is unread; else a fresh feedback register, empty buffers, and phase `p`. -/
def startCall (cfg : Config) (p : Phase) (s : State) : State :=
  if s.ocnt = 0 then { s.dropBuffers with fReg := s.ivm cfg, phase := p } else s.raise .overrun s.ocntByte

/-- R172, `ENC_START`, for any parameters. -/
def execEncStartWith (cfg : Config) (s : State) : Result := command 0x10#8 [.ready] (startCall cfg .enc) s

/-- R172, `ENC_START`. -/
def execEncStart (s : State) : Result := execEncStartWith coreConfig s

/-- R182, `DEC_START`, for any parameters. -/
def execDecStartWith (cfg : Config) (s : State) : Result := command 0x12#8 [.ready] (startCall cfg .dec) s

/-- R182, `DEC_START`. -/
def execDecStart (s : State) : Result := execDecStartWith coreConfig s

/-! ### Processing a block -/

/-- R177: the feedback register advances by one application of the forward pipeline. -/
def State.nextKeystream (cfg : Config) (s : State) : Block := cipher cfg s.fReg (s.km cfg) s.nr.toNat

/-- R177, R178: `ProcessBlock` in phase `ENC`. -/
def encBlock (cfg : Config) (s : State) : State :=
  let f := s.nextKeystream cfg
  { s with fReg := f, ob := s.ib.xor f, olen := 16, ord := 0 }

/-- R185: the least `i` with `D[i] = 0x00`, or 16 when there is none. -/
def firstZero (d : Block) : Fin 17 :=
  ⟨d.toList.findIdx (· == 0x00#8), by
    have h := List.findIdx_le_length (xs := d.toList) (p := (· == 0x00#8))
    simp only [Vector.length_toList] at h
    omega⟩

/-- R185: the bytes of `d` before place `z`, and `0x00` from there on. -/
def keepBefore (z : Fin 17) (d : Block) : Block := Block.build fun i => if i.val < z.val then d[i] else 0x00#8

/-- R177, R184, R185, R187: `ProcessBlock` in phase `DEC`. The feedback register advances whether or not a zero byte
has been met (DESIGN CHOICE, D17, unsafe for `F` alone: notes/assumptions/11.md); only the output is suppressed. -/
def decBlock (cfg : Config) (s : State) : State :=
  let f := s.nextKeystream cfg
  if s.zseen then
    { s with fReg := f, ob := Block.zero, olen := 0, ord := 0 }
  else
    let d := s.ib.xor f
    let z := firstZero d
    { s with fReg := f, ob := keepBefore z d, olen := z, ord := 0, zseen := decide (z.val < 16) }

/-! ### The ports -/

/-- R176, inside a call: the byte that would complete a block is refused while output is unread; else it is stored,
and the 16th byte of a block has it processed by `process`. -/
def pushInCall (process : State → State) (v : Byte) (s : State) : State :=
  if s.icnt = 15 ∧ s.ocnt ≠ 0 then s.raise .overrun s.ocntByte
  else if s.icnt = 15 then process { s with ib := s.ib.set s.icnt v, icnt := 0 }
  else { s with ib := s.ib.set s.icnt v, icnt := s.icnt + 1 }

/-- R54, R176: a write of `v` to `DIN`; outside a call it is a refused access. -/
def pushPort (cfg : Config) (v : Byte) : State → Result :=
  guardedWrite fun s =>
    match s.phase with
    | .enc => pushInCall (encBlock cfg) v s
    | .dec => pushInCall (decBlock cfg) v s
    | .unconf => s.raise .access 0x09#8
    | .ready => s.raise .access 0x09#8

/-- R176, `PUSH`, for any parameters. -/
def execPushWith (cfg : Config) (d : Byte) (s : State) : Result := pushPort cfg d s

/-- R176, `PUSH`. -/
def execPush (d : Byte) (s : State) : Result := execPushWith coreConfig d s

/-- R188: a read of `DOUT`. `OCNT` is not 0 exactly where `ORD < OLEN`. -/
def popPort (s : State) : Result :=
  if s.err ≠ 0x00#8 then .next (s.answer 0x00#8)
  else if h : s.ord < s.olen then
    .next ({ s with ord := ⟨s.ord.val + 1, by omega⟩ }.answer (s.ob[s.ord.val]'(by omega)))
  else .next ((s.raise .underrun 0x00#8).answer 0x00#8)

/-- R188, `POP`. -/
def execPop (s : State) : Result := popPort s

/-! ### Ending a call -/

/-- R179: the bytes before place `n`, and `0x00` from there on. -/
def padFrom (n : Fin 16) (b : Block) : Block := Block.build fun i => if i.val < n.val then b[i] else 0x00#8

/-- R179: the end of the plaintext; a part-filled block is padded and processed. -/
def encFinalBody (cfg : Config) (s : State) : State :=
  if s.icnt = 0 then s.setPhase .ready
  else if s.ocnt ≠ 0 then s.raise .overrun s.ocntByte
  else (encBlock cfg { s with ib := padFrom s.icnt s.ib, icnt := 0 }).setPhase .ready

/-- R179, `ENC_FINAL`, for any parameters. -/
def execEncFinalWith (cfg : Config) (s : State) : Result := command 0x11#8 [.enc] (encFinalBody cfg) s

/-- R179, `ENC_FINAL`. -/
def execEncFinal (s : State) : Result := execEncFinalWith coreConfig s

/-- R186: the end of the ciphertext; a part-filled block is an input error. -/
def decFinalBody (s : State) : State :=
  if s.icnt = 0 then s.setPhase .ready else s.raise .inlen s.icntByte

/-- R186, `DEC_FINAL`. -/
def execDecFinal (s : State) : Result := command 0x13#8 [.dec] decFinalBody s

end Sys2Proof.Machine
end

