-- ==== Sys2Proof/Machine/Access.lean ====
section
/-! DEFINITION. Plain register access, `RD` and `WR`, with the ports and the command port behind the addresses that
have one (R53, R54 of spec/20_memory.md; R216, R217 of spec/44_lifecycle.md). -/

namespace Sys2Proof.Machine

/-- R83: a write of `op` to `CMD`. -/
def writeCmd (cfg : Config) (op : Byte) (s : State) : Result :=
  match commandOf op with
  | some .nop => execNop s
  | some .init => execInitWith cfg s
  | some .destroy => execDestroy s
  | some .clrerr => execClrerr s
  | some .abort => execAbort s
  | some .encStart => execEncStartWith cfg s
  | some .encFinal => execEncFinalWith cfg s
  | some .decStart => execDecStartWith cfg s
  | some .decFinal => execDecFinal s
  | some .cipher => execCipherWith cfg s
  | some .invcipher => execInvcipherWith cfg s
  | some .subbytes => execSubbytesWith cfg s
  | some .invsubbytes => execInvsubbytesWith cfg s
  | some .shiftrows => execShiftrows s
  | some .invshiftrows => execInvshiftrows s
  | some .mixcolumns => execMixcolumns s
  | some .invmixcolumns => execInvmixcolumns s
  | some .addroundkey => execAddroundkeyWith cfg s
  | some .xtime => execXtime s
  | some (.push _) | some .pop | some (.wr _ _) | some (.rd _) | none => illegalCommand op s

/-- R54, the last two branches: a plain write where the table of R52 allows it, else a refused access. -/
def writePlain (r : Reg) (a v : Byte) : State → Result :=
  guardedWrite fun s => (writeReg r v s).getD (s.raise .access a)

/-- R54, R217, `WR`, for any parameters. -/
def execWrWith (cfg : Config) (a d : Byte) (s : State) : Result :=
  match regAt a with
  | .cmd => writeCmd cfg d s
  | .din => pushPort cfg d s
  | r => writePlain r a d s

/-- R54, R217, `WR`. -/
def execWr (a d : Byte) (s : State) : Result := execWrWith coreConfig a d s

/-- R53, the last two branches: a plain read where the table of R52 allows it, else a refused access, which answers
`0x00`. -/
def readPlain (r : Reg) (a : Byte) (s : State) : Result :=
  match readReg r s with
  | some v => .next (s.answer v)
  | none => .next ((s.raise .access a).answer 0x00#8)

/-- R53, R216, `RD`. -/
def execRd (a : Byte) (s : State) : Result :=
  match regAt a with
  | .dout => popPort s
  | r => readPlain r a s

end Sys2Proof.Machine
end

