-- ==== Sys2Proof/Machine/Dispatch.lean ====
section
/-! DEFINITION. The one dispatch from an instruction to its meaning. -/

namespace Sys2Proof.Machine

def exec (i : Instr) (s : State) : Host.Outcome State Fault Refusal :=
  match i with
  | .nop => Sys2Proof.Machine.execNop s
  | .init => Sys2Proof.Machine.execInit s
  | .destroy => Sys2Proof.Machine.execDestroy s
  | .clrerr => Sys2Proof.Machine.execClrerr s
  | .abort => Sys2Proof.Machine.execAbort s
  | .encStart => Sys2Proof.Machine.execEncStart s
  | .encFinal => Sys2Proof.Machine.execEncFinal s
  | .decStart => Sys2Proof.Machine.execDecStart s
  | .decFinal => Sys2Proof.Machine.execDecFinal s
  | .cipher => Sys2Proof.Machine.execCipher s
  | .invcipher => Sys2Proof.Machine.execInvcipher s
  | .subbytes => Sys2Proof.Machine.execSubbytes s
  | .invsubbytes => Sys2Proof.Machine.execInvsubbytes s
  | .shiftrows => Sys2Proof.Machine.execShiftrows s
  | .invshiftrows => Sys2Proof.Machine.execInvshiftrows s
  | .mixcolumns => Sys2Proof.Machine.execMixcolumns s
  | .invmixcolumns => Sys2Proof.Machine.execInvmixcolumns s
  | .addroundkey => Sys2Proof.Machine.execAddroundkey s
  | .xtime => Sys2Proof.Machine.execXtime s
  | .push d => Sys2Proof.Machine.execPush d s
  | .pop => Sys2Proof.Machine.execPop s
  | .wr a d => Sys2Proof.Machine.execWr a d s
  | .rd a => Sys2Proof.Machine.execRd a s

end Sys2Proof.Machine
end

