-- ==== Sys2Proof/Machine/Step.lean ====
section
/-! DEFINITION. One step of CORE: it answers the next event of the host (R20, R37, R62). CORE has no program counter
and fetches nothing; the host's transactions come from `State.pending`. -/

namespace Sys2Proof.Machine

/-- R20: CORE, with its parameters at the spec's values, answers the host's next event. -/
def step (s : State) : Host.Outcome State Fault Refusal := answerEvent exec s

/-- The host's fixed name: the transaction with the bits `w` is the host's next event. -/
def State.withFetchWord (s : State) (_nbits w : Nat) : State :=
  s.withPending (.bus (BitVec.ofNat 17 w) :: s.pending)

end Sys2Proof.Machine
end

