-- ==== Sys2Proof/Machine/Calls.lean ====
section
/-! DEFINITION. The source's construction and its two calls as pure functions (R170, R191, R192 of
spec/43_ofb_stream.md, R210 of spec/44_lifecycle.md): what the streaming commands realise (R193). -/

namespace Sys2Proof.Machine

/-- R210: what a cipher instance holds. -/
structure CipherInst where
  km : Block
  ivm : Block
  rounds : Nat
  deriving DecidableEq, Repr

/-- R210: the two configuration errors of the construction. -/
inductive ConfigError where
  /-- The key is not 16, 24 or 32 bytes long. -/
  | keyLength
  /-- The IV is not as long as the key. -/
  | ivLength
  deriving DecidableEq, Repr

/-- R210: `Construct(key, iv)`. -/
def construct (cfg : Config) (key iv : List Byte) : Except ConfigError CipherInst :=
  match keyLenOf key.length with
  | none => .error .keyLength
  | some l =>
    if iv.length = key.length then .ok ⟨cfg.keymap key, cfg.ivmap iv, (cfg.nr l).toNat⟩
    else .error .ivLength

/-- The instance that a state of CORE holds, where it holds one. -/
def State.inst (cfg : Config) (s : State) : CipherInst := ⟨s.km cfg, s.ivm cfg, s.nr.toNat⟩

/-- R170: keystream block `i`, `ks_i = flat(G_i)`, with `G_0` the IV matrix. -/
def keystream (cfg : Config) (c : CipherInst) (i : Nat) : Block :=
  (fun g => cipher cfg g c.km c.rounds)^[i] c.ivm

/-- R191, R192: byte `16*(j-1) + i` of the payload XORed with `ks_j[i]`. -/
def xorStream (cfg : Config) (c : CipherInst) (p : List Byte) : List Byte :=
  p.mapIdx fun q b => b ^^^ (keystream cfg c (q / 16 + 1))[q % 16]'(by omega)

/-- R191: zero bytes up to a multiple of 16. -/
def zeroPad (p : List Byte) : List Byte :=
  p ++ List.replicate (16 * ((p.length + 15) / 16) - p.length) 0x00#8

/-- R191: `Encrypt(p)`. -/
def encrypt (cfg : Config) (c : CipherInst) (p : List Byte) : List Byte := xorStream cfg c (zeroPad p)

/-- R192: the decrypted stream cut before its first zero byte. -/
def decryptStream (cfg : Config) (c : CipherInst) (p : List Byte) : List Byte :=
  (xorStream cfg c p).takeWhile (· ≠ 0x00#8)

/-- R192: `Decrypt(c)`; none for a length that is no multiple of 16, which has no value. -/
def decrypt (cfg : Config) (c : CipherInst) (p : List Byte) : Option (List Byte) :=
  if p.length % 16 = 0 then some (decryptStream cfg c p) else none

end Sys2Proof.Machine
end

