-- ==== Sys2Proof/Machine/Parametric.lean ====
section
/-! DEFINITION. CORE as a machine that takes its parameters as an argument (R41 of spec/10_state.md, the table "Named
parameters a model takes as arguments" of spec/92_eei_decisions.md). `exec` and `step` are this machine at the spec's
values, `coreConfig`. -/

namespace Sys2Proof.Machine

/-- R41: the meaning of an instruction for any parameters; each arm is the meaning `exec` specialises. -/
def execWith (cfg : Config) (i : Instr) (s : State) : Result :=
  match i with
  | .nop => execNop s
  | .init => execInitWith cfg s
  | .destroy => execDestroy s
  | .clrerr => execClrerr s
  | .abort => execAbort s
  | .encStart => execEncStartWith cfg s
  | .encFinal => execEncFinalWith cfg s
  | .decStart => execDecStartWith cfg s
  | .decFinal => execDecFinal s
  | .cipher => execCipherWith cfg s
  | .invcipher => execInvcipherWith cfg s
  | .subbytes => execSubbytesWith cfg s
  | .invsubbytes => execInvsubbytesWith cfg s
  | .shiftrows => execShiftrows s
  | .invshiftrows => execInvshiftrows s
  | .mixcolumns => execMixcolumns s
  | .invmixcolumns => execInvmixcolumns s
  | .addroundkey => execAddroundkeyWith cfg s
  | .xtime => execXtime s
  | .push d => execPushWith cfg d s
  | .pop => execPop s
  | .wr a d => execWrWith cfg a d s
  | .rd a => execRd a s

/-- R20, R41: one step for any parameters. -/
def stepWith (cfg : Config) (s : State) : Result := answerEvent (execWith cfg) s

end Sys2Proof.Machine
end

