-- ==== Sys2Proof/Machine/Script.lean ====
section
/-! DEFINITION. The host's side: a list of transactions run in order, and the pseudo-operations of R89
(spec/30_encoding.md) with their expansions. They are the host's programs over `execWith`, for any parameters (R41),
and no part of CORE. DEDUCED, safe for the machine: notes/assumptions/15.md. -/

namespace Sys2Proof.Machine

/-- One transaction, where it answers a next state. -/
def transact (cfg : Config) (i : Instr) (s : State) : Option State :=
  match execWith cfg i s with
  | .next t => some t
  | .fault _ => none
  | .refused _ => none

/-- A list of transactions in order (R62), and the bytes its reads returned. -/
def transactAll (cfg : Config) : List Instr → State → Option (State × List Byte)
  | [], s => some (s, [])
  | i :: rest, s => do
    let t ← transact cfg i s
    let (u, bytes) ← transactAll cfg rest t
    return (u, t.rdata.toList ++ bytes)

/-- Writes of the bytes at consecutive addresses from `base` (R58). A list longer than its item writes on at the next
addresses, modulo 256: DESIGN CHOICE, unsafe there, notes/assumptions/17.md. -/
def writesFrom (base : Nat) (bytes : List Byte) : List Instr :=
  bytes.mapIdx fun j b => .wr (BitVec.ofNat 8 (base + j)) b

/-- R89, `LOADKEY`, for at most 32 bytes; for more, and for the length modulo 256, DESIGN CHOICE, unsafe there,
notes/assumptions/17.md. -/
def loadKey (bytes : List Byte) : List Instr :=
  writesFrom 0x40 bytes ++ [.wr 0x04#8 (BitVec.ofNat 8 bytes.length)]

/-- R89, `LOADIV`, for at most 32 bytes; for more, and for the length modulo 256, DESIGN CHOICE, unsafe there,
notes/assumptions/17.md. -/
def loadIv (bytes : List Byte) : List Instr :=
  writesFrom 0x60 bytes ++ [.wr 0x05#8 (BitVec.ofNat 8 bytes.length)]

/-- R89, `LOADS`, for 16 bytes; for any other number DESIGN CHOICE, unsafe there, notes/assumptions/17.md. -/
def loadS (bytes : List Byte) : List Instr := writesFrom 0x10 bytes

/-- R89, `READS`. -/
def readS : List Instr := (List.range 16).map fun i => .rd (BitVec.ofNat 8 (0x10 + i))

/-- R89, `READF`. -/
def readF : List Instr := (List.range 16).map fun i => .rd (BitVec.ofNat 8 (0x20 + i))

/-- R89, `SETUP`. -/
def setup (key iv : List Byte) : List Instr := loadKey key ++ loadIv iv ++ [.init]

/-- R89, `DRAIN`: `RD OCNT -> n`, then `POP` `n` times; the bytes popped. -/
def drain (cfg : Config) (s : State) : Option (State × List Byte) := do
  let t ← transact cfg (.rd 0x08#8) s
  let n ← t.rdata
  transactAll cfg (List.replicate n.toNat .pop) t

/-- R89, `SEND`: after each `PUSH` that left `ICNT = 0`, a `DRAIN`. -/
def send (cfg : Config) : List Byte → State → Option (State × List Byte)
  | [], s => some (s, [])
  | b :: rest, s => do
    let t ← transact cfg (.push b) s
    let (u, out) ← if t.icnt = 0 then drain cfg t else some (t, [])
    let (v, more) ← send cfg rest u
    return (v, out ++ more)

/-- R89: a call, from its start command to the `DRAIN` after its final command. -/
def runCall (cfg : Config) (start final : Instr) (payload : List Byte) (s : State) : Option (State × List Byte) := do
  let t ← transact cfg start s
  let (u, out) ← send cfg payload t
  let v ← transact cfg final u
  let (w, more) ← drain cfg v
  return (w, out ++ more)

/-- R89, `ENCRYPT p`. -/
def encryptCall (cfg : Config) (p : List Byte) (s : State) : Option (State × List Byte) :=
  runCall cfg .encStart .encFinal p s

/-- R89, `DECRYPT c`. -/
def decryptCall (cfg : Config) (c : List Byte) (s : State) : Option (State × List Byte) :=
  runCall cfg .decStart .decFinal c s

end Sys2Proof.Machine
end

