-- ==== Sys2Proof/Safety.lean ====
section
/-! DEFINITION. What counts as a good state and a good run: the invariant of R43 (spec/10_state.md) with the codes
of R241, and the tests of R281 (spec/70_reset_and_hazards.md). -/

namespace Sys2Proof.Machine

/-- R241: the values `ERR` can hold; `0x04..0x0F` and `0x15..0xFF` are never produced. -/
def errorCodes : List Byte := [0x00#8, 0x01#8, 0x02#8, 0x03#8, 0x10#8, 0x11#8, 0x12#8, 0x13#8, 0x14#8]

/-- R43: what holds in every reachable state of CORE with the parameters `cfg` (R41). `ICNT ≤ 15` and `OLEN ≤ 16`
are in the types. -/
structure State.Inv (cfg : Config) (s : State) : Prop where
  /-- `ORD ≤ OLEN`. -/
  ord_le_olen : s.ord.val ≤ s.olen.val
  /-- `PHASE = UNCONF` implies `NR = 0`. -/
  nr_unconf : s.phase = .unconf → s.nr = 0x00#8
  /-- `PHASE ≠ UNCONF` implies `KLEN ∈ {16,24,32}`, `IVLEN = KLEN` and `NR = NR(KLEN)`. -/
  lengths : s.phase ≠ .unconf →
    ∃ l, keyLenOf s.klen.toNat = some l ∧ s.ivlen = s.klen ∧ s.nr = cfg.nr l
  /-- `PHASE ∈ {UNCONF, READY}` implies `ICNT = 0`. -/
  icnt_idle : s.phase = .unconf ∨ s.phase = .ready → s.icnt = 0
  /-- `PHASE = UNCONF` implies `OCNT = 0` and `ZSEEN = 0`. -/
  out_unconf : s.phase = .unconf → s.ocnt = 0 ∧ s.zseen = false
  /-- `PHASE = ENC` implies `ZSEEN = 0`. -/
  zseen_enc : s.phase = .enc → s.zseen = false
  /-- `ERR = 0` implies `ERRINFO = 0x00`. -/
  errinfo_clear : s.err = 0x00#8 → s.errinfo = 0x00#8
  /-- R241: `ERR` holds a code of the table. -/
  err_code : s.err ∈ errorCodes

/-- What R185 leaves in `OB` during a Decrypt call: no byte of the output, read or unread, is `0x00`. -/
def State.DecOutputNonzero (s : State) : Prop :=
  s.phase = .dec → ∀ i : Fin 16, i.val < s.olen.val → s.ob[i] ≠ 0x00#8

/-- R84, the column "legal phases", for the 19 commands; `WR`, `RD`, `PUSH` and `POP` are no commands and are tested
by address (R52). -/
def legalPhases : Instr → List Phase
  | .nop | .destroy | .clrerr => [.unconf, .ready, .enc, .dec]
  | .init => [.unconf]
  | .abort => [.ready, .enc, .dec]
  | .encStart | .decStart => [.ready]
  | .encFinal => [.enc]
  | .decFinal => [.dec]
  | .cipher | .invcipher | .addroundkey => [.ready]
  | .subbytes | .invsubbytes | .shiftrows | .invshiftrows | .mixcolumns | .invmixcolumns | .xtime => [.unconf, .ready]
  | .push _ | .pop | .wr _ _ | .rd _ => [.unconf, .ready, .enc, .dec]

/-- R281: a run went well when `ERR = 0` after its last transaction. -/
abbrev State.WentWell (s : State) : Prop := s.err = 0x00#8

/-- R281: a call is complete when `PHASE = READY` and `OCNT = 0` as well. -/
abbrev State.CallComplete (s : State) : Prop := s.err = 0x00#8 ∧ s.phase = .ready ∧ s.ocnt = 0

end Sys2Proof.Machine
end

