-- ==== Sys2Proof/Certificates/Slice0/Obligations.lean ====
section
/-! DEFINITION. The statements for the provers, from the numbered rules of spec/. Each docstring names the rule it
formalises. Throughout, `rdata := none` says that a write returns nothing and `rdata := some v` that a read answered `v`
(R51; that the answer is held in a field is the model's choice, notes/assumptions/3.md). An equality of the whole next
state is also the frame: everything it does not name is as before. `execWith cfg` is the machine with the parameters
`cfg` (R41) and `exec` the same at the spec's values, `coreConfig`; a statement over every `cfg` rests on no value that
the spec chose for a parameter. What `cipher` and `invCipher` are at a round count of 0 is the model's choice
(notes/assumptions/16.md). -/

open Sys2Proof Sys2Proof.Machine

/-! ### Encoding -/

/-- R80, R81, R84, R85: no bit of an encoding is dropped; the decoder gives back every well-formed instruction, at
every value of its operands. -/
def Obligations.DecodeOfEncodeIsTheInstruction : Prop :=
  ∀ i : Instr, i.wellFormed = true → decode (encode i) = i

/-- R80, R82, R86: every word decodes to a well-formed instruction, whose word it is, but for the byte a read
ignores. -/
def Obligations.EncodeOfDecodeIsTheWord : Prop :=
  ∀ w : Word17, (decode w).wellFormed = true ∧
    encode (decode w) = if w.we = true then w else transactionWord false w.addr 0x00#8

/-- R84, R85: the words of the rows of the opcode table, as the spec writes them. -/
def Obligations.OpcodeTableWordsDecode : Prop :=
  decode 0x10000#17 = .nop ∧ decode 0x10001#17 = .init ∧ decode 0x10002#17 = .destroy ∧ decode 0x10003#17 = .clrerr ∧
  decode 0x10004#17 = .abort ∧ decode 0x10010#17 = .encStart ∧ decode 0x10011#17 = .encFinal ∧
  decode 0x10012#17 = .decStart ∧ decode 0x10013#17 = .decFinal ∧ decode 0x10020#17 = .cipher ∧
  decode 0x10021#17 = .invcipher ∧ decode 0x10030#17 = .subbytes ∧ decode 0x10031#17 = .invsubbytes ∧
  decode 0x10032#17 = .shiftrows ∧ decode 0x10033#17 = .invshiftrows ∧ decode 0x10034#17 = .mixcolumns ∧
  decode 0x10035#17 = .invmixcolumns ∧
  decode 0x10036#17 = .addroundkey ∧ decode 0x10037#17 = .xtime ∧ decode 0x10941#17 = .push 0x41#8 ∧
  decode 0x00a00#17 = .pop ∧
  decode 0x145ab#17 = .wr 0x45#8 0xab#8 ∧ decode 0x00100#17 = .rd 0x01#8

/-- R82: a command has no operand; the immediate of `PUSH` and `WR` is the byte as it is; two reads that differ only
in `wdata` are the same transaction. -/
def Obligations.ReadsIgnoreTheDataByte : Prop :=
  (∀ op ∈ commandOpcodes, commandOf op = some (decode (transactionWord true 0x00#8 op))) ∧
  (∀ d, decode (transactionWord true 0x09#8 d) = .push d) ∧
  (∀ a d, a ≠ 0x00#8 → a ≠ 0x09#8 → decode (transactionWord true a d) = .wr a d) ∧
  (∀ a d d', decode (transactionWord false a d) = decode (transactionWord false a d'))

/-- R86, with R56 for the reserved addresses: the 237 illegal opcodes, by their ranges, raise `E_ILLCMD` and do
nothing else; a transaction to a reserved address is refused; every word has a defined outcome. -/
def Obligations.ReservedEncodingsAreRefused : Prop :=
  (∀ op : Byte, op ∉ commandOpcodes ↔
    (0x05 ≤ op.toNat ∧ op.toNat ≤ 0x0F) ∨ (0x14 ≤ op.toNat ∧ op.toNat ≤ 0x1F) ∨
    (0x22 ≤ op.toNat ∧ op.toNat ≤ 0x2F) ∨ (0x38 ≤ op.toNat ∧ op.toNat ≤ 0xFF)) ∧
  ((List.range 256).countP fun n => !commandOpcodes.contains (BitVec.ofNat 8 n)) = 237 ∧
  (∀ (op : Byte) (s : State), op ∉ commandOpcodes → s.err = 0x00#8 →
    exec (decode (transactionWord true 0x00#8 op)) s =
      .next { s with err := 0x10#8, errinfo := op, rdata := none }) ∧
  (∀ (a : Byte) (s : State), s.err = 0x00#8 →
    (0x0B ≤ a.toNat ∧ a.toNat ≤ 0x0F) ∨ (0x30 ≤ a.toNat ∧ a.toNat ≤ 0x3F) ∨ (0x80 ≤ a.toNat ∧ a.toNat ≤ 0xFF) →
    (∀ x, exec (decode (transactionWord false a x)) s =
      .next { s with err := 0x12#8, errinfo := a, rdata := some 0x00#8 }) ∧
    (∀ d, exec (decode (transactionWord true a d)) s =
      .next { s with err := 0x12#8, errinfo := a, rdata := none })) ∧
  (∀ (w : Word17) (s : State), ∃ t, exec (decode w) s = .next t)

/-! ### The machine -/

/-- R20, R62: a step answers the host's next transaction, decoded, and takes it off the queue; in particular the word
of a well-formed instruction runs that instruction. The queue is the model's own (notes/assumptions/1.md). -/
def Obligations.StepRunsTheDecodedTransaction : Prop :=
  (∀ (s : State) w rest, s.pending = .bus w :: rest → step s = exec (decode w) { s with pending := rest }) ∧
  (∀ (s : State) (i : Instr) rest, i.wellFormed = true → s.pending = .bus (encode i) :: rest →
    step s = exec i { s with pending := rest }) ∧
  (∀ (s : State) n w, step (s.withFetchWord n w) = exec (decode (BitVec.ofNat 17 w)) s)

/-- R20, R270: without an event CORE does not change; the reset input gives the reset state. -/
def Obligations.StepWithoutTransaction : Prop :=
  (∀ s : State, s.pending = [] → step s = .next s) ∧
  (∀ (s : State) rest, s.pending = .reset :: rest → step s = .next { State.reset with pending := rest })

/-- R280, R86: every transaction, in every state, completes; no transaction touches the host's later events. So for
every value of the parameters (R41), of which `exec` and `step` are the machine at the spec's values. -/
def Obligations.EveryTransactionCompletes : Prop :=
  (∀ (i : Instr) (s : State), ∃ t, exec i s = .next t ∧ t.pending = s.pending) ∧
  (∀ s : State, ∃ t, step s = .next t) ∧
  (∀ (cfg : Config) (i : Instr) (s : State), ∃ t, execWith cfg i s = .next t ∧ t.pending = s.pending) ∧
  (∀ (cfg : Config) (s : State), ∃ t, stepWith cfg s = .next t) ∧
  (∀ (i : Instr) (s : State), exec i s = execWith coreConfig i s) ∧
  (∀ s : State, step s = stepWith coreConfig s)

/-- R42: the reset value of every element, the `STATUS` view, and `DESTROY`, which gives exactly this state. -/
def Obligations.ResetLeavesEverythingZero : Prop :=
  State.reset.phase = .unconf ∧ State.reset.err = 0x00#8 ∧ State.reset.errinfo = 0x00#8 ∧
  State.reset.klen = 0x00#8 ∧ State.reset.ivlen = 0x00#8 ∧
  (∀ j : Fin 32, State.reset.key[j] = 0x00#8) ∧ (∀ j : Fin 32, State.reset.iv[j] = 0x00#8) ∧
  State.reset.nr = 0x00#8 ∧
  (∀ i : Fin 16, State.reset.sReg[i] = 0x00#8 ∧ State.reset.fReg[i] = 0x00#8 ∧ State.reset.ib[i] = 0x00#8 ∧
    State.reset.ob[i] = 0x00#8) ∧
  State.reset.icnt = 0 ∧ State.reset.olen = 0 ∧ State.reset.ord = 0 ∧ State.reset.ocnt = 0 ∧
  State.reset.zseen = false ∧ State.reset.status = 0x00#8 ∧
  (∀ s : State, exec .destroy s = .next { State.reset with pending := s.pending })

/-- R43: the invariant holds after reset, for every value of the parameters (R41). -/
def Obligations.InvariantHoldsAfterReset : Prop := ∀ cfg : Config, State.reset.Inv cfg

/-- R43, R241: every step keeps the invariant; so for every value of the parameters (R41), whose `NR` is the one the
invariant then speaks of. -/
def Obligations.EveryStepKeepsTheInvariant : Prop :=
  (∀ s t : State, s.Inv coreConfig → step s = .next t → t.Inv coreConfig) ∧
  (∀ (cfg : Config) (s t : State), s.Inv cfg → stepWith cfg s = .next t → t.Inv cfg)

/-- R185: during a Decrypt call no output byte is `0x00`, whatever is pushed; so a `POP` that takes a byte there
answers one that is not zero. -/
def Obligations.DecryptOutputHasNoZeroByte : Prop :=
  State.reset.DecOutputNonzero ∧
  (∀ s t : State, s.DecOutputNonzero → step s = .next t → t.DecOutputNonzero) ∧
  (∀ s : State, s.DecOutputNonzero → s.phase = .dec → s.err = 0x00#8 → s.ocnt ≠ 0 →
    ∃ t v, exec .pop s = .next t ∧ t.rdata = some v ∧ v ≠ 0x00#8)

/-- R22: the phase changes only by the seven named commands, and only along the listed transitions. -/
def Obligations.NoOtherPhaseTransition : Prop :=
  ∀ (i : Instr) (s t : State), i.wellFormed = true → exec i s = .next t →
    t.phase = s.phase ∨
    (i = .init ∧ s.phase = .unconf ∧ t.phase = .ready) ∨
    (i = .encStart ∧ s.phase = .ready ∧ t.phase = .enc) ∨
    (i = .decStart ∧ s.phase = .ready ∧ t.phase = .dec) ∨
    (i = .encFinal ∧ s.phase = .enc ∧ t.phase = .ready) ∨
    (i = .decFinal ∧ s.phase = .dec ∧ t.phase = .ready) ∨
    (i = .abort ∧ (s.phase = .ready ∨ s.phase = .enc ∨ s.phase = .dec) ∧ t.phase = .ready) ∨
    (i = .destroy ∧ t.phase = .unconf)

/-! ### Errors -/

/-- R247: the error action, and that a transaction that raises an error has none of its normal effects: everything but
`ERR`, `ERRINFO` and the bus's answer is as before it. -/
def Obligations.ARefusedTransactionHasNoPartialEffect : Prop :=
  (∀ (s : State) e info, s.raise e info =
    if s.err = 0x00#8 then { s with err := errorCode e, errinfo := info } else s) ∧
  (∀ (i : Instr) (s t : State), s.err = 0x00#8 → exec i s = .next t → t.err ≠ 0x00#8 →
    t = { s with err := t.err, errinfo := t.errinfo, rdata := t.rdata } ∧
    t.rdata = if i.isWrite = true then none else some 0x00#8)

/-- R241: every error, its code, what raises it under which condition, and what `ERRINFO` records; no other code is
ever produced. -/
def Obligations.EveryErrorHasItsCauseAndCode : Prop :=
  ∀ (i : Instr) (s t : State), i.wellFormed = true → s.err = 0x00#8 → s.errinfo = 0x00#8 → exec i s = .next t →
    (t.err = 0x00#8 ∧ t.errinfo = 0x00#8) ∨
    (t.err = 0x01#8 ∧ i = .init ∧ (s.klen ≠ 16#8 ∧ s.klen ≠ 24#8 ∧ s.klen ≠ 32#8) ∧ t.errinfo = s.klen) ∨
    (t.err = 0x02#8 ∧ i = .init ∧ (s.klen = 16#8 ∨ s.klen = 24#8 ∨ s.klen = 32#8) ∧ s.ivlen ≠ s.klen ∧
      t.errinfo = s.ivlen) ∨
    (t.err = 0x03#8 ∧ i = .decFinal ∧ s.icnt ≠ 0 ∧ t.errinfo.toNat = s.icnt.val) ∨
    (t.err = 0x10#8 ∧ ∃ op, i = .wr 0x00#8 op ∧ op ∉ commandOpcodes ∧ t.errinfo = op) ∨
    (t.err = 0x11#8 ∧ ∃ op, commandOf op = some i ∧ s.phase ∉ legalPhases i ∧ t.errinfo = op) ∨
    (t.err = 0x12#8 ∧
      ((∃ a, i = .rd a ∧ readReg (regAt a) s = none ∧ t.errinfo = a) ∨
       (∃ a d, i = .wr a d ∧ a ≠ 0x00#8 ∧ writeReg (regAt a) d s = none ∧ t.errinfo = a) ∨
       (∃ d, i = .push d ∧ (s.phase = .unconf ∨ s.phase = .ready) ∧ t.errinfo = 0x09#8))) ∨
    (t.err = 0x13#8 ∧ ((∃ d, i = .push d) ∨ i = .encFinal ∨ i = .encStart ∨ i = .decStart) ∧ s.ocnt ≠ 0 ∧
      t.errinfo = BitVec.ofNat 8 s.ocnt) ∨
    (t.err = 0x14#8 ∧ i = .pop ∧ s.ocnt = 0 ∧ t.errinfo = 0x00#8)

/-- R83, R84: a defined opcode that is not legal in the phase raises `E_PHASE` with the opcode, and nothing else
happens; a legal one raises no `E_PHASE`. -/
def Obligations.CommandsAreLegalInTheirPhasesOnly : Prop :=
  ∀ (op : Byte) (i : Instr) (s : State), commandOf op = some i → s.err = 0x00#8 →
    (s.phase ∉ legalPhases i → exec i s = .next { s with err := 0x11#8, errinfo := op, rdata := none }) ∧
    (s.phase ∈ legalPhases i → ∃ t, exec i s = .next t ∧ t.err ≠ 0x11#8)

/-- R249: while an error is pending every write but `CLRERR` and `DESTROY` is dropped, a `POP` pops nothing, a
readable register reads as usual, and a refused read leaves `ERR` and `ERRINFO` alone. -/
def Obligations.FailStopWhileAnErrorIsPending : Prop :=
  ∀ s : State, s.err ≠ 0x00#8 →
    (∀ i : Instr, i.wellFormed = true → i.isWrite = true → i ≠ .clrerr → i ≠ .destroy →
      exec i s = .next { s with rdata := none }) ∧
    exec .clrerr s = .next { s with err := 0x00#8, errinfo := 0x00#8, rdata := none } ∧
    exec .destroy s = .next { State.reset with pending := s.pending } ∧
    exec .pop s = .next { s with rdata := some 0x00#8 } ∧
    (∀ a v, a ≠ 0x0A#8 → readReg (regAt a) s = some v → exec (.rd a) s = .next { s with rdata := some v }) ∧
    (∀ a, a ≠ 0x0A#8 → readReg (regAt a) s = none → exec (.rd a) s = .next { s with rdata := some 0x00#8 })

/-! ### Lifecycle -/

/-- R213, R214: `DESTROY` and `CLRERR`, in every phase and whether or not an error is pending. -/
def Obligations.DestroyWipesAndClrerrResumes : Prop :=
  decode 0x10002#17 = .destroy ∧ decode 0x10003#17 = .clrerr ∧
  (∀ s : State, exec .destroy s = .next { State.reset with pending := s.pending }) ∧
  (∀ s : State, exec .clrerr s = .next { s with err := 0x00#8, errinfo := 0x00#8, rdata := none })

/-- R212: `INIT`, with its two configuration errors and the round count of each key length. The pairing of lengths and
round counts is the spec's own decision (notes/assumptions/7.md). -/
def Obligations.InitConstructsTheInstance : Prop :=
  decode 0x10001#17 = .init ∧
  ∀ s : State, s.err = 0x00#8 →
    (s.phase = .unconf →
      (s.klen ≠ 16#8 ∧ s.klen ≠ 24#8 ∧ s.klen ≠ 32#8 →
        exec .init s = .next { s with err := 0x01#8, errinfo := s.klen, rdata := none }) ∧
      (s.klen = 16#8 ∨ s.klen = 24#8 ∨ s.klen = 32#8 → s.ivlen ≠ s.klen →
        exec .init s = .next { s with err := 0x02#8, errinfo := s.ivlen, rdata := none }) ∧
      (s.klen = 16#8 → s.ivlen = 16#8 → exec .init s = .next { s with nr := 10#8, phase := .ready, rdata := none }) ∧
      (s.klen = 24#8 → s.ivlen = 24#8 → exec .init s = .next { s with nr := 12#8, phase := .ready, rdata := none }) ∧
      (s.klen = 32#8 → s.ivlen = 32#8 → exec .init s = .next { s with nr := 14#8, phase := .ready, rdata := none })) ∧
    (s.phase ≠ .unconf → exec .init s = .next { s with err := 0x11#8, errinfo := 0x01#8, rdata := none })

/-- R211, R215: `NOP` and `ABORT`. -/
def Obligations.NopDoesNothingAndAbortDropsTheCall : Prop :=
  decode 0x10000#17 = .nop ∧ decode 0x10004#17 = .abort ∧
  (∀ s : State, exec .nop s = .next { s with rdata := none }) ∧
  ∀ s : State,
    (s.err = 0x00#8 → s.phase ≠ .unconf →
      exec .abort s = .next { s with phase := .ready, ib := Block.zero, icnt := 0, ob := Block.zero, olen := 0,
                                     ord := 0, zseen := false, rdata := none }) ∧
    (s.err = 0x00#8 → s.phase = .unconf →
      exec .abort s = .next { s with err := 0x11#8, errinfo := 0x04#8, rdata := none }) ∧
    (s.err ≠ 0x00#8 → exec .abort s = .next { s with rdata := none })

/-- R210: construction as a function, and that `INIT` is that construction on the staged bytes and lengths, for every
value of the parameters. The staging buffers hold 32 bytes, so the lengths are taken at most 32.
The order of the two tests is R244's. -/
def Obligations.InitIsTheSourcesConstruction : Prop :=
  ∀ cfg : Config,
  (∀ key iv : List Byte,
    (key.length ≠ 16 ∧ key.length ≠ 24 ∧ key.length ≠ 32 → construct cfg key iv = .error .keyLength) ∧
    (∀ l : KeyLen, key.length = l.bytes → iv.length ≠ key.length →
      construct cfg key iv = .error .ivLength) ∧
    (∀ l : KeyLen, key.length = l.bytes → iv.length = key.length →
      construct cfg key iv =
        .ok ⟨cfg.keymap key, cfg.ivmap iv, (cfg.nr l).toNat⟩)) ∧
  (∀ s : State, s.err = 0x00#8 → s.phase = .unconf → s.klen.toNat ≤ 32 → s.ivlen.toNat ≤ 32 →
    ∃ t, execWith cfg .init s = .next t ∧
      ((∃ c, construct cfg (s.key.toList.take s.klen.toNat) (s.iv.toList.take s.ivlen.toNat) = .ok c ∧
          t.phase = .ready ∧ t.inst cfg = c ∧ t.err = 0x00#8) ∨
       (construct cfg (s.key.toList.take s.klen.toNat) (s.iv.toList.take s.ivlen.toNat) =
          .error .keyLength ∧ t.phase = .unconf ∧ t.err = 0x01#8) ∨
       (construct cfg (s.key.toList.take s.klen.toNat) (s.iv.toList.take s.ivlen.toNat) =
          .error .ivLength ∧ t.phase = .unconf ∧ t.err = 0x02#8)))

/-- R273, steps 1 to 3: from reset, staging a key and an IV of a legal length and issuing `INIT` gives the instance
the source's construction gives, with no error, for every value of the parameters. `SETUP` is R89's, read as
notes/assumptions/15.md says. -/
def Obligations.BringUpBuildsTheInstance : Prop :=
  ∀ (cfg : Config) (key iv : List Byte) (l : KeyLen), key.length = l.bytes → iv.length = key.length →
    ∃ t, transactAll cfg (setup key iv) State.reset = some (t, []) ∧ t.err = 0x00#8 ∧ t.phase = .ready ∧
      construct cfg key iv = .ok (t.inst cfg) ∧ t.sReg = State.reset.sReg ∧ t.fReg = State.reset.fReg

/-- R25 to R28: while an instance exists the key, the IV, their lengths and the round count change by `DESTROY`
alone. -/
def Obligations.TheInstanceIsImmutable : Prop :=
  ∀ (i : Instr) (s t : State), i.wellFormed = true → exec i s = .next t → s.phase ≠ .unconf → i ≠ .destroy →
    t.key = s.key ∧ t.iv = s.iv ∧ t.klen = s.klen ∧ t.ivlen = s.ivlen ∧ t.nr = s.nr

/-! ### The register space -/

/-- R36, with R22 for the codes: the `STATUS` view, field by field, and that its read has no side effect. -/
def Obligations.StatusShowsItsFields : Prop :=
  ∀ s : State,
    s.status.extractLsb' 0 2 =
      (match s.phase with
       | .unconf => 0
       | .ready => 1
       | .enc => 2
       | .dec => 3) ∧
    s.status.getLsbD 2 = decide (s.err ≠ 0x00#8) ∧
    s.status.getLsbD 3 = s.zseen ∧
    s.status.getLsbD 4 = decide (s.ocnt ≠ 0) ∧
    s.status.getLsbD 5 = decide (s.icnt ≠ 0) ∧
    s.status.getLsbD 6 = false ∧ s.status.getLsbD 7 = false ∧
    exec (.rd 0x01#8) s = .next { s with rdata := some s.status }

/-- R53, with the read column of R52 row by row: a readable register other than `DOUT` answers its value and nothing
else changes, also while an error is pending; `DOUT` pops; any other address answers `0x00` and raises
`E_ACCESS`. -/
def Obligations.ReadsFollowTheAddressMap : Prop :=
  ∀ s : State,
    exec (.rd 0x0A#8) s = exec .pop s ∧
    exec (.rd 0x01#8) s = .next { s with rdata := some s.status } ∧
    exec (.rd 0x02#8) s = .next { s with rdata := some s.err } ∧
    exec (.rd 0x03#8) s = .next { s with rdata := some s.errinfo } ∧
    exec (.rd 0x04#8) s = .next { s with rdata := some s.klen } ∧
    exec (.rd 0x05#8) s = .next { s with rdata := some s.ivlen } ∧
    exec (.rd 0x06#8) s = .next { s with rdata := some s.nr } ∧
    exec (.rd 0x07#8) s = .next { s with rdata := some (BitVec.ofNat 8 s.icnt.val) } ∧
    exec (.rd 0x08#8) s = .next { s with rdata := some (BitVec.ofNat 8 (s.olen.val - s.ord.val)) } ∧
    (∀ i : Fin 16, exec (.rd (BitVec.ofNat 8 (0x10 + i.val))) s = .next { s with rdata := some s.sReg[i] }) ∧
    (∀ i : Fin 16, exec (.rd (BitVec.ofNat 8 (0x20 + i.val))) s = .next { s with rdata := some s.fReg[i] }) ∧
    (∀ j : Fin 32, exec (.rd (BitVec.ofNat 8 (0x60 + j.val))) s = .next { s with rdata := some s.iv[j] }) ∧
    (∀ a : Byte, a.toNat = 0x00 ∨ a.toNat = 0x09 ∨ (0x0B ≤ a.toNat ∧ a.toNat ≤ 0x0F) ∨
        (0x30 ≤ a.toNat ∧ a.toNat ≤ 0x5F) ∨ 0x80 ≤ a.toNat →
      exec (.rd a) s =
        .next (if s.err = 0x00#8 then { s with err := 0x12#8, errinfo := a, rdata := some 0x00#8 }
               else { s with rdata := some 0x00#8 }))

/-- R54, with the write column of R52 row by row: the fail-stop, the command port, `DIN`, the five writable registers
in their phases, and the refusal of every other write. -/
def Obligations.WritesFollowTheAddressMap : Prop :=
  (∀ (s : State) op i, commandOf op = some i → exec (.wr 0x00#8 op) s = exec i s) ∧
  (∀ (s : State) a v, s.err ≠ 0x00#8 → ¬ (a = 0x00#8 ∧ (v = 0x03#8 ∨ v = 0x02#8)) →
    exec (.wr a v) s = .next { s with rdata := none }) ∧
  (∀ (s : State) op, op ∉ commandOpcodes → s.err = 0x00#8 →
    exec (.wr 0x00#8 op) s = .next { s with err := 0x10#8, errinfo := op, rdata := none }) ∧
  (∀ (s : State) v, exec (.wr 0x09#8 v) s = exec (.push v) s) ∧
  (∀ (s : State) v, s.err = 0x00#8 → s.phase = .unconf →
    exec (.wr 0x04#8 v) s = .next { s with klen := v, rdata := none } ∧
    exec (.wr 0x05#8 v) s = .next { s with ivlen := v, rdata := none } ∧
    (∀ j : Fin 32, exec (.wr (BitVec.ofNat 8 (0x40 + j.val)) v) s =
      .next { s with key := s.key.set j v, rdata := none }) ∧
    (∀ j : Fin 32, exec (.wr (BitVec.ofNat 8 (0x60 + j.val)) v) s =
      .next { s with iv := s.iv.set j v, rdata := none })) ∧
  (∀ (s : State) v (i : Fin 16), s.err = 0x00#8 → s.phase = .unconf ∨ s.phase = .ready →
    exec (.wr (BitVec.ofNat 8 (0x10 + i.val)) v) s = .next { s with sReg := s.sReg.set i v, rdata := none }) ∧
  (∀ (s : State) a v, s.err = 0x00#8 →
    (0x01 ≤ a.toNat ∧ a.toNat ≤ 0x03) ∨ (0x06 ≤ a.toNat ∧ a.toNat ≤ 0x08) ∨ (0x0A ≤ a.toNat ∧ a.toNat ≤ 0x0F) ∨
      (0x20 ≤ a.toNat ∧ a.toNat ≤ 0x3F) ∨ 0x80 ≤ a.toNat ∨
      (s.phase ≠ .unconf ∧ (a.toNat = 0x04 ∨ a.toNat = 0x05 ∨ (0x40 ≤ a.toNat ∧ a.toNat ≤ 0x7F))) ∨
      ((s.phase = .enc ∨ s.phase = .dec) ∧ 0x10 ≤ a.toNat ∧ a.toNat ≤ 0x1F) ∨
      ((s.phase = .unconf ∨ s.phase = .ready) ∧ a.toNat = 0x09) →
    exec (.wr a v) s = .next { s with err := 0x12#8, errinfo := a, rdata := none })

/-- R26: no read gives anything of `KEY` away: two states that differ in `KEY` alone answer every read alike and go on
to differ in `KEY` alone. This is no claim of key secrecy (93_implementation_defined.md U8). -/
def Obligations.NoReadRevealsTheKey : Prop :=
  ∀ (i : Instr) (s : State) (k : Buf32), i.isWrite = false →
    ∃ t, exec i s = .next t ∧ exec i { s with key := k } = .next { t with key := k }

/-- R29, R30: for every legal length the two matrices are the first 16 bytes of their buffers, column-major; for 24
and 32 bytes that is the spec's own decision (notes/assumptions/6.md). -/
def Obligations.KeyAndIvMatricesAreTheFirstSixteenBytes : Prop :=
  ∀ s : State,
    (s.klen = 16#8 ∨ s.klen = 24#8 ∨ s.klen = 32#8 →
      ∀ r c : Fin 4, (s.km coreConfig).cell r c = s.key[r.val + 4 * c.val]'(by omega)) ∧
    (s.ivlen = 16#8 ∨ s.ivlen = 24#8 ∨ s.ivlen = 32#8 →
      ∀ r c : Fin 4, (s.ivm coreConfig).cell r c = s.iv[r.val + 4 * c.val]'(by omega))

/-- R31: the working State changes only by a plain write to it, by the ten commands that work on it, and by `DESTROY`;
never inside a call but by `DESTROY`. -/
def Obligations.OnlyItsCommandsWriteTheWorkingState : Prop :=
  ∀ (i : Instr) (s t : State), i.wellFormed = true → exec i s = .next t →
    t.sReg = s.sReg ∨ i = .destroy ∨
    ((s.phase = .unconf ∨ s.phase = .ready) ∧
      ((∃ (j : Fin 16) (v : Byte), i = .wr (BitVec.ofNat 8 (0x10 + j.val)) v) ∨
       i ∈ [Instr.cipher, .invcipher, .subbytes, .invsubbytes, .shiftrows, .invshiftrows, .mixcolumns,
            .invmixcolumns, .addroundkey, .xtime]))

/-- R32: the feedback register is seeded by the two start commands, advances by one forward pipeline with each
completed block, is wiped by `DESTROY`, and is written by nothing else. -/
def Obligations.OnlyCallsWriteTheFeedbackRegister : Prop :=
  ∀ (i : Instr) (s t : State), i.wellFormed = true → exec i s = .next t →
    t.fReg = s.fReg ∨
    (i = .destroy ∧ t.fReg = Block.zero) ∨
    ((i = .encStart ∨ i = .decStart) ∧ s.phase = .ready ∧ t.fReg = s.ivm coreConfig) ∨
    ((∃ v, i = .push v) ∧ (s.phase = .enc ∨ s.phase = .dec) ∧ s.icnt = 15 ∧
      t.fReg = cipher coreConfig s.fReg (s.km coreConfig) s.nr.toNat) ∨
    (i = .encFinal ∧ s.phase = .enc ∧ s.icnt ≠ 0 ∧ t.fReg = cipher coreConfig s.fReg (s.km coreConfig) s.nr.toNat)

/-! ### The field and the tables -/

/-- R101: doubling, with the source's order of steps on natural numbers. -/
def Obligations.XtimeShiftsAndReduces : Prop :=
  (∀ b : Byte, (xtime b).toNat =
    if b.getLsbD 7 = true then ((b.toNat <<< 1) &&& 0xFF) ^^^ 0x1B else (b.toNat <<< 1) &&& 0xFF) ∧
  xtime 0x57#8 = 0xAE#8 ∧ xtime 0xAE#8 = 0x47#8

/-- R102, which the spec derives from R101: (a) to (e). -/
def Obligations.XtimeIsDoublingInTheField : Prop :=
  (∀ b : Byte, xtime b = gmul b 0x02#8) ∧
  (∀ a b : Byte, xtime (a ^^^ b) = xtime a ^^^ xtime b) ∧ xtime 0x00#8 = 0x00#8 ∧
  Function.Bijective xtime ∧ (∀ b : Byte, xtime b = b → b = 0x00#8) ∧
  (∀ b : Byte, xtime^[8] b = gmul b 0x1B#8) ∧
  (∀ b : Byte, xtime^[51] b = b) ∧ (∀ n, 0 < n → n < 51 → ∃ b : Byte, xtime^[n] b ≠ b)

/-- R103: `XTIME`. -/
def Obligations.XtimeCommandDoublesEveryByte : Prop :=
  decode 0x10037#17 = .xtime ∧
  ∀ s : State, s.err = 0x00#8 →
    (s.phase = .unconf ∨ s.phase = .ready →
      ∃ b : Block, (∀ i : Fin 16, b[i] = xtime s.sReg[i]) ∧
        exec .xtime s = .next { s with sReg := b, rdata := none }) ∧
    (s.phase = .enc ∨ s.phase = .dec →
      exec .xtime s = .next { s with err := 0x11#8, errinfo := 0x37#8, rdata := none })

/-- R104: the contract of the two tables, and what R104 itself derives from it: the identity the other way round, and
that the table is a bijection. That the tables chosen meet the contract rests on their bytes (notes/assumptions/5.md).
-/
def Obligations.TablesAreInverseBijections : Prop :=
  (∀ x : Byte, coreConfig.invSbox (coreConfig.sbox x) = x) ∧
  (∀ y : Byte, coreConfig.sbox (coreConfig.invSbox y) = y) ∧
  Function.Bijective coreConfig.sbox

/-- R107, which the spec marks as general knowledge: every entry of the forward table is the affine map, bit by bit,
of the field inverse of its index. The table's bytes are PRESUMED (notes/assumptions/5.md). -/
def Obligations.ForwardTableFollowsItsConstruction : Prop :=
  ∀ x : Byte, ∃ y : Byte, (x = 0x00#8 → y = 0x00#8) ∧ (x ≠ 0x00#8 → gmul x y = 0x01#8) ∧
    ∀ i : Fin 8, (coreConfig.sbox x).getLsbD i.val =
      (y.getLsbD i.val ^^ y.getLsbD ((i.val + 4) % 8) ^^ y.getLsbD ((i.val + 5) % 8) ^^
        y.getLsbD ((i.val + 6) % 8) ^^ y.getLsbD ((i.val + 7) % 8) ^^ (0x63#8 : Byte).getLsbD i.val)

/-! ### Transforms -/

/-- R122, R124: `SUBBYTES` and `INVSUBBYTES`, with the corner cases both rules list. The tables' bytes are the spec's
own decision (notes/assumptions/5.md). -/
def Obligations.SubstitutionCommandsLookUpEveryByte : Prop :=
  decode 0x10030#17 = .subbytes ∧ decode 0x10031#17 = .invsubbytes ∧
  (coreConfig.sbox 0x00#8 = 0x63#8 ∧ coreConfig.sbox 0x52#8 = 0x00#8 ∧ ∀ b : Byte, coreConfig.sbox b ≠ b) ∧
  (coreConfig.invSbox 0x63#8 = 0x00#8 ∧ coreConfig.invSbox 0x00#8 = 0x52#8) ∧
  ∀ s : State, s.err = 0x00#8 →
    (s.phase = .unconf ∨ s.phase = .ready →
      (∃ b : Block, (∀ i : Fin 16, b[i] = coreConfig.sbox s.sReg[i]) ∧
        exec .subbytes s = .next { s with sReg := b, rdata := none }) ∧
      (∃ b : Block, (∀ i : Fin 16, b[i] = coreConfig.invSbox s.sReg[i]) ∧
        exec .invsubbytes s = .next { s with sReg := b, rdata := none })) ∧
    (s.phase = .enc ∨ s.phase = .dec →
      exec .subbytes s = .next { s with err := 0x11#8, errinfo := 0x30#8, rdata := none } ∧
      exec .invsubbytes s = .next { s with err := 0x11#8, errinfo := 0x31#8, rdata := none })

/-- R126, R128, at the buffer places of R17 and R31: `SHIFTROWS` and `INVSHIFTROWS`, cell by cell of the 4×4 State;
that cell (r, c) is byte r + 4c of the buffer is the spec's own decision (notes/assumptions/8.md). -/
def Obligations.RowCommandsRotateEveryRow : Prop :=
  decode 0x10032#17 = .shiftrows ∧ decode 0x10033#17 = .invshiftrows ∧
  ∀ s : State, s.err = 0x00#8 →
    (s.phase = .unconf ∨ s.phase = .ready →
      (∃ b : Block, (∀ r c : Fin 4, b[r.val + 4 * c.val]'(by omega) =
          s.sReg[r.val + 4 * ((c.val + r.val) % 4)]'(by omega)) ∧
        exec .shiftrows s = .next { s with sReg := b, rdata := none }) ∧
      (∃ b : Block, (∀ r c : Fin 4, b[r.val + 4 * c.val]'(by omega) =
          s.sReg[r.val + 4 * ((c.val + 4 - r.val) % 4)]'(by omega)) ∧
        exec .invshiftrows s = .next { s with sReg := b, rdata := none })) ∧
    (s.phase = .enc ∨ s.phase = .dec →
      exec .shiftrows s = .next { s with err := 0x11#8, errinfo := 0x32#8, rdata := none } ∧
      exec .invshiftrows s = .next { s with err := 0x11#8, errinfo := 0x33#8, rdata := none })

/-- R131, R134: `MIXCOLUMNS` and `INVMIXCOLUMNS`, column by column; the two column functions are stated in
`ColumnMixingIsThePolynomialProduct`. -/
def Obligations.ColumnCommandsMixEveryColumn : Prop :=
  decode 0x10034#17 = .mixcolumns ∧ decode 0x10035#17 = .invmixcolumns ∧
  ∀ s : State, s.err = 0x00#8 →
    (s.phase = .unconf ∨ s.phase = .ready →
      (∃ b : Block, (∀ c : Fin 4, b.column c = mixColumn (s.sReg.column c)) ∧
        exec .mixcolumns s = .next { s with sReg := b, rdata := none }) ∧
      (∃ b : Block, (∀ c : Fin 4, b.column c = invMixColumn (s.sReg.column c)) ∧
        exec .invmixcolumns s = .next { s with sReg := b, rdata := none })) ∧
    (s.phase = .enc ∨ s.phase = .dec →
      exec .mixcolumns s = .next { s with err := 0x11#8, errinfo := 0x34#8, rdata := none } ∧
      exec .invmixcolumns s = .next { s with err := 0x11#8, errinfo := 0x35#8, rdata := none })

/-- R129, R132: the two column functions written out, their expansions over the field, and the linearity of the
forward one. -/
def Obligations.ColumnMixingIsThePolynomialProduct : Prop :=
  ∀ c0 c1 c2 c3 : Byte,
    mixColumn ⟨c0, c1, c2, c3⟩ =
      ⟨c0 ^^^ (c0 ^^^ c1 ^^^ c2 ^^^ c3) ^^^ xtime (c0 ^^^ c1), c1 ^^^ (c0 ^^^ c1 ^^^ c2 ^^^ c3) ^^^ xtime (c1 ^^^ c2),
       c2 ^^^ (c0 ^^^ c1 ^^^ c2 ^^^ c3) ^^^ xtime (c2 ^^^ c3), c3 ^^^ (c0 ^^^ c1 ^^^ c2 ^^^ c3) ^^^ xtime (c3 ^^^ c0)⟩ ∧
    mixColumn ⟨c0, c1, c2, c3⟩ =
      ⟨gmul c0 2#8 ^^^ gmul c1 3#8 ^^^ c2 ^^^ c3, c0 ^^^ gmul c1 2#8 ^^^ gmul c2 3#8 ^^^ c3,
       c0 ^^^ c1 ^^^ gmul c2 2#8 ^^^ gmul c3 3#8, gmul c0 3#8 ^^^ c1 ^^^ c2 ^^^ gmul c3 2#8⟩ ∧
    invMixColumn ⟨c0, c1, c2, c3⟩ =
      mixColumn ⟨c0 ^^^ xtime (xtime (c0 ^^^ c2)), c1 ^^^ xtime (xtime (c1 ^^^ c3)),
        c2 ^^^ xtime (xtime (c0 ^^^ c2)), c3 ^^^ xtime (xtime (c1 ^^^ c3))⟩ ∧
    invMixColumn ⟨c0, c1, c2, c3⟩ =
      ⟨gmul c0 0x0e#8 ^^^ gmul c1 0x0b#8 ^^^ gmul c2 0x0d#8 ^^^ gmul c3 0x09#8,
       gmul c0 0x09#8 ^^^ gmul c1 0x0e#8 ^^^ gmul c2 0x0b#8 ^^^ gmul c3 0x0d#8,
       gmul c0 0x0d#8 ^^^ gmul c1 0x09#8 ^^^ gmul c2 0x0e#8 ^^^ gmul c3 0x0b#8,
       gmul c0 0x0b#8 ^^^ gmul c1 0x0d#8 ^^^ gmul c2 0x09#8 ^^^ gmul c3 0x0e#8⟩ ∧
    (∀ d0 d1 d2 d3 : Byte, ∀ r : Fin 4,
      (mixColumn ⟨c0 ^^^ d0, c1 ^^^ d1, c2 ^^^ d2, c3 ^^^ d3⟩).row r =
        (mixColumn ⟨c0, c1, c2, c3⟩).row r ^^^ (mixColumn ⟨d0, d1, d2, d3⟩).row r)

/-- R130, R133: both transforms mix each column by itself; the two undo each other on every State, with no condition,
which the spec derives. -/
def Obligations.InvMixColumnsUndoesMixColumns : Prop :=
  (∀ (m : Block) (c : Fin 4), (mixColumns m).column c = mixColumn (m.column c) ∧
    (invMixColumns m).column c = invMixColumn (m.column c)) ∧
  ∀ m : Block, invMixColumns (mixColumns m) = m ∧ mixColumns (invMixColumns m) = m

/-- R135, for every table that meets the contract of R104: the substitutions and the rotations undo each other, and
commute. -/
def Obligations.SubstitutionAndRotationInvertAndCommute : Prop :=
  (∀ (cfg : Config) (m : Block), cfg.Lawful →
    invSubBytes cfg (subBytes cfg m) = m ∧ subBytes cfg (invSubBytes cfg m) = m) ∧
  (∀ m : Block, invShiftRows (shiftRows m) = m ∧ shiftRows (invShiftRows m) = m) ∧
  (∀ (cfg : Config) (m : Block), subBytes cfg (shiftRows m) = shiftRows (subBytes cfg m) ∧
    invSubBytes cfg (invShiftRows m) = invShiftRows (invSubBytes cfg m))

/-- R138, R139, with the key matrix of R29: `AddRoundKey` byte by byte, that it undoes itself, and the command
`ADDROUNDKEY`. That key bytes 16 and up take no part, also for 24 and 32 key bytes, is the spec's own decision
(notes/assumptions/6.md). -/
def Obligations.AddRoundKeyXorsTheKeyMatrix : Prop :=
  (∀ m k : Block, (∀ i : Fin 16, (addRoundKey m k)[i] = m[i] ^^^ k[i]) ∧ addRoundKey (addRoundKey m k) k = m) ∧
  decode 0x10036#17 = .addroundkey ∧
  ∀ s : State, s.err = 0x00#8 →
    (s.phase = .ready → s.klen = 16#8 ∨ s.klen = 24#8 ∨ s.klen = 32#8 →
      ∃ b : Block, (∀ i : Fin 16, b[i] = s.sReg[i] ^^^ s.key[i.val]'(by omega)) ∧
        exec .addroundkey s = .next { s with sReg := b, rdata := none }) ∧
    (s.phase ≠ .ready → exec .addroundkey s = .next { s with err := 0x11#8, errinfo := 0x36#8, rdata := none })

/-! ### Pipelines -/

/-- R151, R153: both pipelines as the chain of their rounds, for every round count `n ≥ 1`; the forward one is a
bijection for every lawful table. The first `addRoundKey` of the inverse is R153's own reading of the source
(notes/assumptions/10.md). -/
def Obligations.PipelinesAreChainsOfRounds : Prop :=
  (∀ (cfg : Config) (m k : Block) (n : Nat), 1 ≤ n →
    ∃ x : Nat → Block, x 0 = addRoundKey m k ∧
      (∀ j, j < n - 1 → x (j + 1) = addRoundKey (mixColumns (shiftRows (subBytes cfg (x j)))) k) ∧
      cipher cfg m k n = addRoundKey (shiftRows (subBytes cfg (x (n - 1)))) k) ∧
  (∀ (cfg : Config) (m k : Block) (n : Nat), 1 ≤ n →
    ∃ x : Nat → Block, x 0 = addRoundKey m k ∧
      (∀ j, j < n - 1 → x (j + 1) = invMixColumns (addRoundKey (invSubBytes cfg (invShiftRows (x j))) k)) ∧
      invCipher cfg m k n = addRoundKey (invSubBytes cfg (invShiftRows (x (n - 1)))) k) ∧
  (∀ (cfg : Config) (k : Block) (n : Nat), cfg.Lawful → 1 ≤ n → Function.Bijective fun m => cipher cfg m k n)

/-- R156, which the spec derives under its reading of the inverse chain (notes/assumptions/10.md), for every table
that meets the contract of R104: the inverse pipeline is the exact inverse of the forward one, on both sides. -/
def Obligations.InvCipherUndoesCipher : Prop :=
  ∀ (cfg : Config) (m k : Block) (n : Nat), cfg.Lawful → 1 ≤ n →
    invCipher cfg (cipher cfg m k n) k n = m ∧ cipher cfg (invCipher cfg m k n) k n = m

/-- R154, R155: `CIPHER` and `INVCIPHER`; and R156, that each, run after the other with no write to `S` between,
restores the working State, which the spec derives under its reading of the inverse chain (notes/assumptions/10.md).
With a round count of 0, which no run reaches, that rests on the model's choice of notes/assumptions/16.md. -/
def Obligations.PipelineCommandsRunOnTheWorkingState : Prop :=
  decode 0x10020#17 = .cipher ∧ decode 0x10021#17 = .invcipher ∧
  ∀ s : State, s.err = 0x00#8 →
    (s.phase = .ready →
      exec .cipher s =
        .next { s with sReg := cipher coreConfig s.sReg (s.km coreConfig) s.nr.toNat, rdata := none } ∧
      exec .invcipher s =
        .next { s with sReg := invCipher coreConfig s.sReg (s.km coreConfig) s.nr.toNat, rdata := none }) ∧
    (s.phase ≠ .ready →
      exec .cipher s = .next { s with err := 0x11#8, errinfo := 0x20#8, rdata := none } ∧
      exec .invcipher s = .next { s with err := 0x11#8, errinfo := 0x21#8, rdata := none }) ∧
    (s.phase = .ready →
      (∃ t, exec .cipher s = .next t ∧ exec .invcipher t = .next { s with rdata := none }) ∧
      (∃ t, exec .invcipher s = .next t ∧ exec .cipher t = .next { s with rdata := none }))

/-- R151 by commands: the forward pipeline driven by hand, one transform command at a time, ends in the very state
that `CIPHER` gives, for every value of the parameters. -/
def Obligations.PipelineByHandEqualsCipher : Prop :=
  ∀ (cfg : Config) (s : State), s.err = 0x00#8 → s.phase = .ready → 1 ≤ s.nr.toNat →
    ∃ t, execWith cfg .cipher s = .next t ∧
      transactAll cfg ([Instr.addroundkey] ++
        (List.replicate (s.nr.toNat - 1) [Instr.subbytes, .shiftrows, .mixcolumns, .addroundkey]).flatten ++
        [.subbytes, .shiftrows, .addroundkey]) s = some (t, [])

/-! ### The streaming mode -/

/-- R172, R182: `ENC_START` and `DEC_START`. -/
def Obligations.StartCommandsOpenACall : Prop :=
  decode 0x10010#17 = .encStart ∧ decode 0x10012#17 = .decStart ∧
  ∀ s : State, s.err = 0x00#8 →
    (s.phase = .ready → s.ocnt = 0 →
      exec .encStart s =
        .next { s with fReg := s.ivm coreConfig, ib := Block.zero, icnt := 0, ob := Block.zero, olen := 0, ord := 0,
                       zseen := false, phase := .enc, rdata := none } ∧
      exec .decStart s =
        .next { s with fReg := s.ivm coreConfig, ib := Block.zero, icnt := 0, ob := Block.zero, olen := 0, ord := 0,
                       zseen := false, phase := .dec, rdata := none }) ∧
    (s.phase = .ready → s.ocnt ≠ 0 →
      exec .encStart s = .next { s with err := 0x13#8, errinfo := BitVec.ofNat 8 s.ocnt, rdata := none } ∧
      exec .decStart s = .next { s with err := 0x13#8, errinfo := BitVec.ofNat 8 s.ocnt, rdata := none }) ∧
    (s.phase ≠ .ready →
      exec .encStart s = .next { s with err := 0x11#8, errinfo := 0x10#8, rdata := none } ∧
      exec .decStart s = .next { s with err := 0x11#8, errinfo := 0x12#8, rdata := none })

/-- R176: `PUSH` of a byte that completes no block, and its two refusals; the byte that completes a block is stated in
`ACompletedBlockIsEncrypted` and `ACompletedBlockIsDecrypted`. -/
def Obligations.PushStoresTheNextByte : Prop :=
  (∀ v, decode (transactionWord true 0x09#8 v) = .push v) ∧
  ∀ (s : State) (v : Byte), s.err = 0x00#8 →
    (s.phase = .enc ∨ s.phase = .dec → ∀ h : s.icnt.val < 15,
      exec (.push v) s =
        .next { s with ib := s.ib.set s.icnt v, icnt := ⟨s.icnt.val + 1, by omega⟩, rdata := none }) ∧
    (s.phase = .enc ∨ s.phase = .dec → s.icnt = 15 → s.ocnt ≠ 0 →
      exec (.push v) s = .next { s with err := 0x13#8, errinfo := BitVec.ofNat 8 s.ocnt, rdata := none }) ∧
    (s.phase = .unconf ∨ s.phase = .ready →
      exec (.push v) s = .next { s with err := 0x12#8, errinfo := 0x09#8, rdata := none })

/-- R177, R178: the 16th byte of a block in phase `ENC`: the feedback register advances by one forward pipeline, then
the block is XORed with it. -/
def Obligations.ACompletedBlockIsEncrypted : Prop :=
  ∀ (s : State) (v : Byte), s.err = 0x00#8 → s.phase = .enc → s.icnt = 15 → s.ocnt = 0 →
    ∃ f ob : Block, f = cipher coreConfig s.fReg (s.km coreConfig) s.nr.toNat ∧
      (∀ i : Fin 16, ob[i] = (s.ib.set 15 v)[i] ^^^ f[i]) ∧
      exec (.push v) s =
        .next { s with ib := s.ib.set 15 v, icnt := 0, fReg := f, ob := ob, olen := 16, ord := 0, rdata := none }

/-- R177, R184, R185, R187: the 16th byte of a block in phase `DEC`: the feedback register advances as in `ENC`
(R177), also once a zero byte has been met, which R187 says and is the spec's own decision (notes/assumptions/11.md);
the output is the decrypted bytes before the first zero byte. -/
def Obligations.ACompletedBlockIsDecrypted : Prop :=
  ∀ (s : State) (v : Byte), s.err = 0x00#8 → s.phase = .dec → s.icnt = 15 → s.ocnt = 0 →
    ∃ f d : Block, f = cipher coreConfig s.fReg (s.km coreConfig) s.nr.toNat ∧
      (∀ i : Fin 16, d[i] = (s.ib.set 15 v)[i] ^^^ f[i]) ∧
      (s.zseen = true →
        exec (.push v) s =
          .next { s with ib := s.ib.set 15 v, icnt := 0, fReg := f, ob := Block.zero, olen := 0, ord := 0,
                         rdata := none }) ∧
      (s.zseen = false →
        ∃ (z : Fin 17) (ob : Block),
          (∀ i : Fin 16, i.val < z.val → d[i] ≠ 0x00#8 ∧ ob[i] = d[i]) ∧
          (∀ i : Fin 16, i.val = z.val → d[i] = 0x00#8) ∧
          (∀ i : Fin 16, z.val ≤ i.val → ob[i] = 0x00#8) ∧
          exec (.push v) s =
            .next { s with ib := s.ib.set 15 v, icnt := 0, fReg := f, ob := ob, olen := z, ord := 0,
                           zseen := decide (z.val < 16), rdata := none })

/-- R179: `ENC_FINAL`, with and without a part-filled block. -/
def Obligations.EncFinalPadsTheLastBlock : Prop :=
  decode 0x10011#17 = .encFinal ∧
  ∀ s : State, s.err = 0x00#8 →
    (s.phase = .enc → s.icnt = 0 → exec .encFinal s = .next { s with phase := .ready, rdata := none }) ∧
    (s.phase = .enc → s.icnt ≠ 0 → s.ocnt ≠ 0 →
      exec .encFinal s = .next { s with err := 0x13#8, errinfo := BitVec.ofNat 8 s.ocnt, rdata := none }) ∧
    (s.phase = .enc → s.icnt ≠ 0 → s.ocnt = 0 →
      ∃ f ib ob : Block, f = cipher coreConfig s.fReg (s.km coreConfig) s.nr.toNat ∧
        (∀ i : Fin 16, i.val < s.icnt.val → ib[i] = s.ib[i]) ∧ (∀ i : Fin 16, s.icnt.val ≤ i.val → ib[i] = 0x00#8) ∧
        (∀ i : Fin 16, ob[i] = ib[i] ^^^ f[i]) ∧
        exec .encFinal s =
          .next { s with ib := ib, icnt := 0, fReg := f, ob := ob, olen := 16, ord := 0, phase := .ready,
                         rdata := none }) ∧
    (s.phase ≠ .enc → exec .encFinal s = .next { s with err := 0x11#8, errinfo := 0x11#8, rdata := none })

/-- R186: `DEC_FINAL` and its input error. -/
def Obligations.DecFinalChecksTheLength : Prop :=
  decode 0x10013#17 = .decFinal ∧
  ∀ s : State, s.err = 0x00#8 →
    (s.phase = .dec → s.icnt = 0 → exec .decFinal s = .next { s with phase := .ready, rdata := none }) ∧
    (s.phase = .dec → s.icnt ≠ 0 →
      exec .decFinal s = .next { s with err := 0x03#8, errinfo := BitVec.ofNat 8 s.icnt.val, rdata := none }) ∧
    (s.phase ≠ .dec → exec .decFinal s = .next { s with err := 0x11#8, errinfo := 0x13#8, rdata := none })

/-- R188: `POP`, in every phase. -/
def Obligations.PopTakesTheNextOutputByte : Prop :=
  (∀ x, decode (transactionWord false 0x0A#8 x) = .pop) ∧
  ∀ s : State,
    (s.err ≠ 0x00#8 → exec .pop s = .next { s with rdata := some 0x00#8 }) ∧
    (s.err = 0x00#8 → s.ocnt = 0 →
      exec .pop s = .next { s with err := 0x14#8, errinfo := 0x00#8, rdata := some 0x00#8 }) ∧
    (s.err = 0x00#8 → ∀ h : s.ord.val < s.olen.val,
      exec .pop s =
        .next { s with ord := ⟨s.ord.val + 1, by omega⟩, rdata := some (s.ob[s.ord.val]'(by omega)) })

/-- R272: draining before the next block completes: after the refused `PUSH`, `CLRERR` and a drain give the state in
which the same byte is accepted, and the bytes drained are the unread output, in order. `F` then
advances by one forward pipeline (R177), in `DEC` also once a zero byte has been met, which is R187's decision
(notes/assumptions/11.md). For every value of the parameters; `DRAIN` is R89's, read as notes/assumptions/15.md
says. -/
def Obligations.AnOverrunIsRecoverable : Prop :=
  ∀ (cfg : Config) (s : State) (v : Byte), s.err = 0x00#8 → s.phase = .enc ∨ s.phase = .dec → s.icnt = 15 →
    s.ord.val < s.olen.val →
    ∃ t u out w, execWith cfg (.push v) s = .next t ∧ t.err = 0x13#8 ∧ t.ib = s.ib ∧ t.icnt = s.icnt ∧
      execWith cfg .clrerr t = .next { s with errinfo := 0x00#8, rdata := none } ∧
      drain cfg { s with errinfo := 0x00#8, rdata := none } = some (u, out) ∧
      out = (s.ob.toList.take s.olen.val).drop s.ord.val ∧ u.ocnt = 0 ∧
      execWith cfg (.push v) u = .next w ∧ w.err = 0x00#8 ∧ w.icnt = 0 ∧
      w.fReg = cipher cfg s.fReg (s.km cfg) s.nr.toNat

/-- R170, R177, R187: the keystream depends on the key, the IV and the block index only: two completed blocks of
calls that agree on `F`, the key matrix and the round count leave the same `F`, whatever was pushed, in `ENC` and in
`DEC` alike, before and after a zero byte (for the latter notes/assumptions/11.md), for every value of the
parameters. -/
def Obligations.TheKeystreamIgnoresThePayload : Prop :=
  ∀ (cfg : Config) (s s' : State) (v v' : Byte),
    s.err = 0x00#8 → s.phase = .enc ∨ s.phase = .dec → s.icnt = 15 → s.ocnt = 0 →
    s'.err = 0x00#8 → s'.phase = .enc ∨ s'.phase = .dec → s'.icnt = 15 → s'.ocnt = 0 →
    s.fReg = s'.fReg → s.km cfg = s'.km cfg → s.nr = s'.nr →
    ∃ t t', execWith cfg (.push v) s = .next t ∧ execWith cfg (.push v') s' = .next t' ∧ t.fReg = t'.fReg ∧
      (∀ j c, s.fReg = keystream cfg c j → c.km = s.km cfg → c.rounds = s.nr.toNat →
        t.fReg = keystream cfg c (j + 1))

/-- R196: a call never reads `S`, nor what an earlier call left over: from two states that agree on the key, the IV,
their lengths and the round count, both ready for a call, the same call gives the same output and the same
feedback register, for every value of the parameters. The calls are R89's scripts, read as notes/assumptions/15.md
says. -/
def Obligations.ACallDependsOnTheInstanceAndThePayloadOnly : Prop :=
  ∀ (cfg : Config) (s s' : State) (p : List Byte),
    s.err = 0x00#8 → s.phase = .ready → s.ocnt = 0 → s'.err = 0x00#8 → s'.phase = .ready → s'.ocnt = 0 →
    s.key = s'.key → s.iv = s'.iv → s.klen = s'.klen → s.ivlen = s'.ivlen → s.nr = s'.nr →
    (∃ t t' out, encryptCall cfg p s = some (t, out) ∧ encryptCall cfg p s' = some (t', out) ∧ t.fReg = t'.fReg ∧
      t.sReg = s.sReg ∧ t'.sReg = s'.sReg) ∧
    (∃ t t' out, decryptCall cfg p s = some (t, out) ∧ decryptCall cfg p s' = some (t', out) ∧ t.fReg = t'.fReg ∧
      t.sReg = s.sReg ∧ t'.sReg = s'.sReg)

/-- R191: `Encrypt` as a function: its length, and each of its bytes. -/
def Obligations.EncryptPadsAndXorsTheKeystream : Prop :=
  ∀ (cfg : Config) (c : CipherInst) (p : List Byte),
    (encrypt cfg c p).length = 16 * ((p.length + 15) / 16) ∧
    encrypt cfg c [] = [] ∧
    (∀ (j : Nat) (i : Fin 16), 16 * j + i.val < (encrypt cfg c p).length →
      (encrypt cfg c p)[16 * j + i.val]? =
        some ((p[16 * j + i.val]?.getD 0x00#8) ^^^ (keystream cfg c (j + 1))[i]))

/-- R192: `Decrypt` gives the bytes before the first zero of the XORed stream and no value for a length that is no
multiple of 16. R194, which the spec derives from R191 and R192: it undoes `Encrypt` up to the plaintext's first zero
byte. -/
def Obligations.DecryptUndoesEncryptUpToTheFirstZero : Prop :=
  (∀ (cfg : Config) (c : CipherInst) (x : List Byte),
    (x.length % 16 ≠ 0 → decrypt cfg c x = none) ∧
    (x.length % 16 = 0 → ∃ out, decrypt cfg c x = some out ∧ out.length ≤ x.length ∧
      (∀ q, q < out.length → ∃ b, x[q]? = some b ∧
        out[q]? = some (b ^^^ (keystream cfg c (q / 16 + 1))[q % 16]'(by omega)) ∧ out[q]? ≠ some 0x00#8) ∧
      (∀ b, x[out.length]? = some b →
        b ^^^ (keystream cfg c (out.length / 16 + 1))[out.length % 16]'(by omega) = 0x00#8))) ∧
  (∀ (cfg : Config) (c : CipherInst) (p : List Byte),
    decrypt cfg c (encrypt cfg c p) = some (p.takeWhile (· ≠ 0x00#8)) ∧
    (0x00#8 ∉ p → decrypt cfg c (encrypt cfg c p) = some p))

/-- R193, Encrypt, which the spec derives: run as R89 expands it (DEDUCED, notes/assumptions/15.md), a call from any
ready state with no error and no unread output raises no error and pops exactly `Encrypt(p)`, for every value of the
parameters. -/
def Obligations.TheProtocolRealisesEncrypt : Prop :=
  ∀ (cfg : Config) (s : State) (p : List Byte), s.err = 0x00#8 → s.phase = .ready → s.ocnt = 0 →
    ∃ t, encryptCall cfg p s = some (t, encrypt cfg (s.inst cfg) p) ∧
      t.err = 0x00#8 ∧ t.phase = .ready ∧ t.ocnt = 0 ∧
      t.fReg = keystream cfg (s.inst cfg) ((p.length + 15) / 16) ∧
      t.key = s.key ∧ t.iv = s.iv ∧ t.sReg = s.sReg ∧ t.nr = s.nr

/-- R193, Decrypt, which the spec derives: run as R89 expands it (DEDUCED, notes/assumptions/15.md), for whole blocks
the call raises no error and pops exactly `Decrypt(c)`; for any other length `DEC_FINAL` raises `E_INLEN` and the
bytes popped are those of the whole blocks. `F` advances with every block, also after a zero byte (DESIGN CHOICE of
the spec, notes/assumptions/11.md). For every value of the parameters. -/
def Obligations.TheProtocolRealisesDecrypt : Prop :=
  ∀ (cfg : Config) (s : State) (c : List Byte), s.err = 0x00#8 → s.phase = .ready → s.ocnt = 0 →
    ∃ t out, decryptCall cfg c s = some (t, out) ∧
      t.ocnt = 0 ∧ t.fReg = keystream cfg (s.inst cfg) (c.length / 16) ∧
      t.key = s.key ∧ t.iv = s.iv ∧ t.sReg = s.sReg ∧ t.nr = s.nr ∧
      (c.length % 16 = 0 → t.err = 0x00#8 ∧ t.phase = .ready ∧ decrypt cfg (s.inst cfg) c = some out) ∧
      (c.length % 16 ≠ 0 → t.err = 0x03#8 ∧ t.errinfo = BitVec.ofNat 8 (c.length % 16) ∧ t.phase = .dec ∧
        decrypt cfg (s.inst cfg) (c.take (16 * (c.length / 16))) = some out)
end

