-- ==== Sys2Proof/Laws/Blocks.lean ====
section
/-! SUPPORT. The block as a buffer and as a matrix: what each byte and each cell of a built block is, and that the two
readings undo each other (R17). -/

namespace Sys2Proof

@[simp] theorem Block.build_get (f : Fin 16 → Byte) (i : Fin 16) : (Block.build f)[i] = f i := by
  revert i; simp [Block.build, Fin.forall_fin_succ]

@[simp] theorem Block.build_getElem (f : Fin 16 → Byte) (i : Nat) (h : i < 16) : (Block.build f)[i] = f ⟨i, h⟩ :=
  Block.build_get f ⟨i, h⟩

/-- Two blocks with the same sixteen bytes are equal. -/
theorem Block.ext_get {a b : Block} (h : ∀ i : Fin 16, a[i] = b[i]) : a = b :=
  Vector.ext fun i hi => h ⟨i, hi⟩

@[simp] theorem Block.build_eta (b : Block) : (Block.build fun i => b[i]) = b :=
  Block.ext_get fun i => by simp

@[simp] theorem Block.zero_get (i : Fin 16) : Block.zero[i] = 0x00#8 := by simp [Block.zero]

@[simp] theorem Block.zero_getElem (i : Nat) (h : i < 16) : Block.zero[i] = 0x00#8 := Block.zero_get ⟨i, h⟩

@[simp] theorem Block.index_val (r c : Fin 4) : (Block.index r c).val = r.val + 4 * c.val := rfl

@[simp] theorem Block.cell_ofCells (m : Fin 4 → Fin 4 → Byte) (r c : Fin 4) : (Block.ofCells m).cell r c = m r c := by
  have hr : (r.val + 4 * c.val) % 4 = r.val := by omega
  have hc : (r.val + 4 * c.val) / 4 = c.val := by omega
  simp [Block.cell, Block.ofCells, hr, hc]

/-- Byte `i` of a matrix's buffer is the cell in row `i mod 4`, column `i div 4` (R17). -/
theorem Block.ofCells_get (m : Fin 4 → Fin 4 → Byte) (i : Fin 16) :
    (Block.ofCells m)[i] = m ⟨i.val % 4, by omega⟩ ⟨i.val / 4, by omega⟩ := by
  simp [Block.ofCells]

/-- Byte `i` of a buffer is its cell in row `i mod 4`, column `i div 4` (R17). -/
theorem Block.get_eq_cell (b : Block) (i : Fin 16) :
    b[i] = b.cell ⟨i.val % 4, by omega⟩ ⟨i.val / 4, by omega⟩ := by
  have h : Block.index ⟨i.val % 4, by omega⟩ ⟨i.val / 4, by omega⟩ = i := Fin.ext (by simp; omega)
  simp only [Block.cell, h]

/-- Two blocks with the same sixteen cells are equal. -/
theorem Block.ext_cell {a b : Block} (h : ∀ r c, a.cell r c = b.cell r c) : a = b :=
  Block.ext_get fun i => by rw [Block.get_eq_cell, Block.get_eq_cell, h]

/-- R17: `flat(load(b)) = b`. -/
@[simp] theorem Block.ofCells_cell (b : Block) : Block.ofCells b.cell = b :=
  Block.ext_cell fun r c => by simp

@[simp] theorem Block.column_row (b : Block) (r c : Fin 4) : (b.column c).row r = b.cell r c := by
  fin_cases r <;> rfl

@[simp] theorem Block.cell_ofColumns (f : Fin 4 → Column) (r c : Fin 4) :
    (Block.ofColumns f).cell r c = (f c).row r := by
  simp [Block.ofColumns]

/-- Two columns with the same four bytes are equal. -/
theorem Column.ext_row {a b : Column} (h : ∀ r, a.row r = b.row r) : a = b := by
  have h0 := h 0; have h1 := h 1; have h2 := h 2; have h3 := h 3
  cases a; cases b; simp_all [Column.row]

@[simp] theorem Block.column_ofColumns (f : Fin 4 → Column) (c : Fin 4) : (Block.ofColumns f).column c = f c :=
  Column.ext_row fun r => by simp

@[simp] theorem Block.ofColumns_column (b : Block) : (Block.ofColumns b.column) = b :=
  Block.ext_cell fun r c => by simp

@[simp] theorem Block.xor_get (a b : Block) (i : Fin 16) : (a.xor b)[i] = a[i] ^^^ b[i] := by
  simp [Block.xor]

@[simp] theorem Block.xor_getElem (a b : Block) (i : Nat) (h : i < 16) : (a.xor b)[i] = a[i] ^^^ b[i] :=
  Block.xor_get a b ⟨i, h⟩

end Sys2Proof
end

