-- ==== Sys2Proof/Laws/Decode.lean ====
section
/-! SUPPORT. The three fields of a transaction word (R80), and the opcode map against its list (R84, R86). -/

namespace Sys2Proof

@[simp] theorem transactionWord_we (b : Bool) (a d : Byte) : (transactionWord b a d).we = b := by
  simp only [transactionWord, Word17.we, BitVec.getLsbD_append]
  cases b <;> simp

@[simp] theorem transactionWord_addr (b : Bool) (a d : Byte) : (transactionWord b a d).addr = a := by
  ext i hi
  simp only [Word17.addr, transactionWord, BitVec.getElem_extractLsb', BitVec.getLsbD_append]
  have h1 : ¬ 8 + i < 8 := by omega
  have h2 : 8 + i - 8 < 8 := by omega
  simp [h1, hi]

@[simp] theorem transactionWord_wdata (b : Bool) (a d : Byte) : (transactionWord b a d).wdata = d := by
  ext i hi
  simp only [Word17.wdata, transactionWord, BitVec.getElem_extractLsb', Nat.zero_add]
  rw [BitVec.getLsbD_append]
  simp [hi]

/-- A word is the transaction of its three fields. -/
theorem transactionWord_fields (w : Word17) : transactionWord w.we w.addr w.wdata = w := by
  have : ∀ i : Nat, i < 17 → (transactionWord w.we w.addr w.wdata).getLsbD i = w.getLsbD i := by
    intro i hi
    simp only [transactionWord, Word17.we, Word17.addr, Word17.wdata, BitVec.getLsbD_append,
      BitVec.getLsbD_extractLsb', BitVec.getLsbD_ofBool]
    by_cases h1 : i < 8
    · simp [h1]
    · by_cases h2 : i < 16
      · have h3 : i - 8 < 8 := by omega
        have h4 : 8 + (i - 8) = i := by omega
        simp [h1, h3, h4]
      · have h3 : i = 16 := by omega
        subst h3; simp
  exact BitVec.eq_of_getLsbD_eq this

/-- R84, R86: the opcodes of the map are the 19 listed ones. -/
theorem commandOf_isSome (op : Byte) : (commandOf op).isSome = commandOpcodes.contains op := by
  revert op; decide +kernel

/-- R86: an opcode outside the list has no command. -/
theorem commandOf_eq_none {op : Byte} (h : op ∉ commandOpcodes) : commandOf op = none := by
  have := commandOf_isSome op
  rw [List.contains_eq_mem, decide_eq_false h] at this
  simpa using this

/-- R84: what the map gives is a command, no access to a port or a register. -/
theorem commandOf_eq_some {op : Byte} {i : Instr} (h : commandOf op = some i) :
    op ∈ commandOpcodes ∧ encode i = transactionWord true 0x00#8 op := by
  have key : ∀ op : Byte, ∀ i ∈ commandOf op, op ∈ commandOpcodes ∧ encode i = transactionWord true 0x00#8 op := by
    decide +kernel
  exact key op i h

/-- R84: a command's opcode is the data byte of its own word. -/
theorem commandOf_opcode {op : Byte} {i : Instr} (h : commandOf op = some i) : op = (encode i).wdata := by
  rw [(commandOf_eq_some h).2, transactionWord_wdata]

/-- R81: no opcode stands for a port operation or a plain access. -/
theorem commandOf_ne_access {op : Byte} {i : Instr} (h : commandOf op = some i) :
    (∀ d, i ≠ .push d) ∧ i ≠ .pop ∧ (∀ a d, i ≠ .wr a d) ∧ ∀ a, i ≠ .rd a := by
  unfold commandOf at h
  split at h <;> cases h <;> simp

end Sys2Proof
end

