-- ==== Sys2Proof/Laws/State.lean ====
section
/-! SUPPORT. One lemma per field per named update of the state, each true by `rfl`, so that no proof unfolds a record
update. The error action `raise` is a choice between two states; its lemmas are in Laws/Ops.lean. -/

namespace Sys2Proof.Machine

@[simp] theorem State.noAnswer_phase (s : State) : (s.noAnswer).phase = s.phase := rfl
@[simp] theorem State.noAnswer_err (s : State) : (s.noAnswer).err = s.err := rfl
@[simp] theorem State.noAnswer_errinfo (s : State) : (s.noAnswer).errinfo = s.errinfo := rfl
@[simp] theorem State.noAnswer_klen (s : State) : (s.noAnswer).klen = s.klen := rfl
@[simp] theorem State.noAnswer_ivlen (s : State) : (s.noAnswer).ivlen = s.ivlen := rfl
@[simp] theorem State.noAnswer_key (s : State) : (s.noAnswer).key = s.key := rfl
@[simp] theorem State.noAnswer_iv (s : State) : (s.noAnswer).iv = s.iv := rfl
@[simp] theorem State.noAnswer_nr (s : State) : (s.noAnswer).nr = s.nr := rfl
@[simp] theorem State.noAnswer_sReg (s : State) : (s.noAnswer).sReg = s.sReg := rfl
@[simp] theorem State.noAnswer_fReg (s : State) : (s.noAnswer).fReg = s.fReg := rfl
@[simp] theorem State.noAnswer_ib (s : State) : (s.noAnswer).ib = s.ib := rfl
@[simp] theorem State.noAnswer_icnt (s : State) : (s.noAnswer).icnt = s.icnt := rfl
@[simp] theorem State.noAnswer_ob (s : State) : (s.noAnswer).ob = s.ob := rfl
@[simp] theorem State.noAnswer_olen (s : State) : (s.noAnswer).olen = s.olen := rfl
@[simp] theorem State.noAnswer_ord (s : State) : (s.noAnswer).ord = s.ord := rfl
@[simp] theorem State.noAnswer_zseen (s : State) : (s.noAnswer).zseen = s.zseen := rfl
@[simp] theorem State.noAnswer_rdata (s : State) : (s.noAnswer).rdata = none := rfl
@[simp] theorem State.noAnswer_pending (s : State) : (s.noAnswer).pending = s.pending := rfl

@[simp] theorem State.answer_phase (s : State) (v : Byte) : (s.answer v).phase = s.phase := rfl
@[simp] theorem State.answer_err (s : State) (v : Byte) : (s.answer v).err = s.err := rfl
@[simp] theorem State.answer_errinfo (s : State) (v : Byte) : (s.answer v).errinfo = s.errinfo := rfl
@[simp] theorem State.answer_klen (s : State) (v : Byte) : (s.answer v).klen = s.klen := rfl
@[simp] theorem State.answer_ivlen (s : State) (v : Byte) : (s.answer v).ivlen = s.ivlen := rfl
@[simp] theorem State.answer_key (s : State) (v : Byte) : (s.answer v).key = s.key := rfl
@[simp] theorem State.answer_iv (s : State) (v : Byte) : (s.answer v).iv = s.iv := rfl
@[simp] theorem State.answer_nr (s : State) (v : Byte) : (s.answer v).nr = s.nr := rfl
@[simp] theorem State.answer_sReg (s : State) (v : Byte) : (s.answer v).sReg = s.sReg := rfl
@[simp] theorem State.answer_fReg (s : State) (v : Byte) : (s.answer v).fReg = s.fReg := rfl
@[simp] theorem State.answer_ib (s : State) (v : Byte) : (s.answer v).ib = s.ib := rfl
@[simp] theorem State.answer_icnt (s : State) (v : Byte) : (s.answer v).icnt = s.icnt := rfl
@[simp] theorem State.answer_ob (s : State) (v : Byte) : (s.answer v).ob = s.ob := rfl
@[simp] theorem State.answer_olen (s : State) (v : Byte) : (s.answer v).olen = s.olen := rfl
@[simp] theorem State.answer_ord (s : State) (v : Byte) : (s.answer v).ord = s.ord := rfl
@[simp] theorem State.answer_zseen (s : State) (v : Byte) : (s.answer v).zseen = s.zseen := rfl
@[simp] theorem State.answer_rdata (s : State) (v : Byte) : (s.answer v).rdata = some v := rfl
@[simp] theorem State.answer_pending (s : State) (v : Byte) : (s.answer v).pending = s.pending := rfl

@[simp] theorem State.clearError_phase (s : State) : (s.clearError).phase = s.phase := rfl
@[simp] theorem State.clearError_err (s : State) : (s.clearError).err = 0x00#8 := rfl
@[simp] theorem State.clearError_errinfo (s : State) : (s.clearError).errinfo = 0x00#8 := rfl
@[simp] theorem State.clearError_klen (s : State) : (s.clearError).klen = s.klen := rfl
@[simp] theorem State.clearError_ivlen (s : State) : (s.clearError).ivlen = s.ivlen := rfl
@[simp] theorem State.clearError_key (s : State) : (s.clearError).key = s.key := rfl
@[simp] theorem State.clearError_iv (s : State) : (s.clearError).iv = s.iv := rfl
@[simp] theorem State.clearError_nr (s : State) : (s.clearError).nr = s.nr := rfl
@[simp] theorem State.clearError_sReg (s : State) : (s.clearError).sReg = s.sReg := rfl
@[simp] theorem State.clearError_fReg (s : State) : (s.clearError).fReg = s.fReg := rfl
@[simp] theorem State.clearError_ib (s : State) : (s.clearError).ib = s.ib := rfl
@[simp] theorem State.clearError_icnt (s : State) : (s.clearError).icnt = s.icnt := rfl
@[simp] theorem State.clearError_ob (s : State) : (s.clearError).ob = s.ob := rfl
@[simp] theorem State.clearError_olen (s : State) : (s.clearError).olen = s.olen := rfl
@[simp] theorem State.clearError_ord (s : State) : (s.clearError).ord = s.ord := rfl
@[simp] theorem State.clearError_zseen (s : State) : (s.clearError).zseen = s.zseen := rfl
@[simp] theorem State.clearError_rdata (s : State) : (s.clearError).rdata = s.rdata := rfl
@[simp] theorem State.clearError_pending (s : State) : (s.clearError).pending = s.pending := rfl

@[simp] theorem State.setS_phase (s : State) (b : Block) : (s.setS b).phase = s.phase := rfl
@[simp] theorem State.setS_err (s : State) (b : Block) : (s.setS b).err = s.err := rfl
@[simp] theorem State.setS_errinfo (s : State) (b : Block) : (s.setS b).errinfo = s.errinfo := rfl
@[simp] theorem State.setS_klen (s : State) (b : Block) : (s.setS b).klen = s.klen := rfl
@[simp] theorem State.setS_ivlen (s : State) (b : Block) : (s.setS b).ivlen = s.ivlen := rfl
@[simp] theorem State.setS_key (s : State) (b : Block) : (s.setS b).key = s.key := rfl
@[simp] theorem State.setS_iv (s : State) (b : Block) : (s.setS b).iv = s.iv := rfl
@[simp] theorem State.setS_nr (s : State) (b : Block) : (s.setS b).nr = s.nr := rfl
@[simp] theorem State.setS_sReg (s : State) (b : Block) : (s.setS b).sReg = b := rfl
@[simp] theorem State.setS_fReg (s : State) (b : Block) : (s.setS b).fReg = s.fReg := rfl
@[simp] theorem State.setS_ib (s : State) (b : Block) : (s.setS b).ib = s.ib := rfl
@[simp] theorem State.setS_icnt (s : State) (b : Block) : (s.setS b).icnt = s.icnt := rfl
@[simp] theorem State.setS_ob (s : State) (b : Block) : (s.setS b).ob = s.ob := rfl
@[simp] theorem State.setS_olen (s : State) (b : Block) : (s.setS b).olen = s.olen := rfl
@[simp] theorem State.setS_ord (s : State) (b : Block) : (s.setS b).ord = s.ord := rfl
@[simp] theorem State.setS_zseen (s : State) (b : Block) : (s.setS b).zseen = s.zseen := rfl
@[simp] theorem State.setS_rdata (s : State) (b : Block) : (s.setS b).rdata = s.rdata := rfl
@[simp] theorem State.setS_pending (s : State) (b : Block) : (s.setS b).pending = s.pending := rfl

@[simp] theorem State.setPhase_phase (s : State) (p : Phase) : (s.setPhase p).phase = p := rfl
@[simp] theorem State.setPhase_err (s : State) (p : Phase) : (s.setPhase p).err = s.err := rfl
@[simp] theorem State.setPhase_errinfo (s : State) (p : Phase) : (s.setPhase p).errinfo = s.errinfo := rfl
@[simp] theorem State.setPhase_klen (s : State) (p : Phase) : (s.setPhase p).klen = s.klen := rfl
@[simp] theorem State.setPhase_ivlen (s : State) (p : Phase) : (s.setPhase p).ivlen = s.ivlen := rfl
@[simp] theorem State.setPhase_key (s : State) (p : Phase) : (s.setPhase p).key = s.key := rfl
@[simp] theorem State.setPhase_iv (s : State) (p : Phase) : (s.setPhase p).iv = s.iv := rfl
@[simp] theorem State.setPhase_nr (s : State) (p : Phase) : (s.setPhase p).nr = s.nr := rfl
@[simp] theorem State.setPhase_sReg (s : State) (p : Phase) : (s.setPhase p).sReg = s.sReg := rfl
@[simp] theorem State.setPhase_fReg (s : State) (p : Phase) : (s.setPhase p).fReg = s.fReg := rfl
@[simp] theorem State.setPhase_ib (s : State) (p : Phase) : (s.setPhase p).ib = s.ib := rfl
@[simp] theorem State.setPhase_icnt (s : State) (p : Phase) : (s.setPhase p).icnt = s.icnt := rfl
@[simp] theorem State.setPhase_ob (s : State) (p : Phase) : (s.setPhase p).ob = s.ob := rfl
@[simp] theorem State.setPhase_olen (s : State) (p : Phase) : (s.setPhase p).olen = s.olen := rfl
@[simp] theorem State.setPhase_ord (s : State) (p : Phase) : (s.setPhase p).ord = s.ord := rfl
@[simp] theorem State.setPhase_zseen (s : State) (p : Phase) : (s.setPhase p).zseen = s.zseen := rfl
@[simp] theorem State.setPhase_rdata (s : State) (p : Phase) : (s.setPhase p).rdata = s.rdata := rfl
@[simp] theorem State.setPhase_pending (s : State) (p : Phase) : (s.setPhase p).pending = s.pending := rfl

@[simp] theorem State.dropBuffers_phase (s : State) : (s.dropBuffers).phase = s.phase := rfl
@[simp] theorem State.dropBuffers_err (s : State) : (s.dropBuffers).err = s.err := rfl
@[simp] theorem State.dropBuffers_errinfo (s : State) : (s.dropBuffers).errinfo = s.errinfo := rfl
@[simp] theorem State.dropBuffers_klen (s : State) : (s.dropBuffers).klen = s.klen := rfl
@[simp] theorem State.dropBuffers_ivlen (s : State) : (s.dropBuffers).ivlen = s.ivlen := rfl
@[simp] theorem State.dropBuffers_key (s : State) : (s.dropBuffers).key = s.key := rfl
@[simp] theorem State.dropBuffers_iv (s : State) : (s.dropBuffers).iv = s.iv := rfl
@[simp] theorem State.dropBuffers_nr (s : State) : (s.dropBuffers).nr = s.nr := rfl
@[simp] theorem State.dropBuffers_sReg (s : State) : (s.dropBuffers).sReg = s.sReg := rfl
@[simp] theorem State.dropBuffers_fReg (s : State) : (s.dropBuffers).fReg = s.fReg := rfl
@[simp] theorem State.dropBuffers_ib (s : State) : (s.dropBuffers).ib = Block.zero := rfl
@[simp] theorem State.dropBuffers_icnt (s : State) : (s.dropBuffers).icnt = 0 := rfl
@[simp] theorem State.dropBuffers_ob (s : State) : (s.dropBuffers).ob = Block.zero := rfl
@[simp] theorem State.dropBuffers_olen (s : State) : (s.dropBuffers).olen = 0 := rfl
@[simp] theorem State.dropBuffers_ord (s : State) : (s.dropBuffers).ord = 0 := rfl
@[simp] theorem State.dropBuffers_zseen (s : State) : (s.dropBuffers).zseen = false := rfl
@[simp] theorem State.dropBuffers_rdata (s : State) : (s.dropBuffers).rdata = s.rdata := rfl
@[simp] theorem State.dropBuffers_pending (s : State) : (s.dropBuffers).pending = s.pending := rfl

@[simp] theorem State.withPending_phase (s : State) (l : List HostEvent) : (s.withPending l).phase = s.phase := rfl
@[simp] theorem State.withPending_err (s : State) (l : List HostEvent) : (s.withPending l).err = s.err := rfl
@[simp] theorem State.withPending_errinfo (s : State) (l : List HostEvent) :
    (s.withPending l).errinfo = s.errinfo := rfl
@[simp] theorem State.withPending_klen (s : State) (l : List HostEvent) : (s.withPending l).klen = s.klen := rfl
@[simp] theorem State.withPending_ivlen (s : State) (l : List HostEvent) : (s.withPending l).ivlen = s.ivlen := rfl
@[simp] theorem State.withPending_key (s : State) (l : List HostEvent) : (s.withPending l).key = s.key := rfl
@[simp] theorem State.withPending_iv (s : State) (l : List HostEvent) : (s.withPending l).iv = s.iv := rfl
@[simp] theorem State.withPending_nr (s : State) (l : List HostEvent) : (s.withPending l).nr = s.nr := rfl
@[simp] theorem State.withPending_sReg (s : State) (l : List HostEvent) : (s.withPending l).sReg = s.sReg := rfl
@[simp] theorem State.withPending_fReg (s : State) (l : List HostEvent) : (s.withPending l).fReg = s.fReg := rfl
@[simp] theorem State.withPending_ib (s : State) (l : List HostEvent) : (s.withPending l).ib = s.ib := rfl
@[simp] theorem State.withPending_icnt (s : State) (l : List HostEvent) : (s.withPending l).icnt = s.icnt := rfl
@[simp] theorem State.withPending_ob (s : State) (l : List HostEvent) : (s.withPending l).ob = s.ob := rfl
@[simp] theorem State.withPending_olen (s : State) (l : List HostEvent) : (s.withPending l).olen = s.olen := rfl
@[simp] theorem State.withPending_ord (s : State) (l : List HostEvent) : (s.withPending l).ord = s.ord := rfl
@[simp] theorem State.withPending_zseen (s : State) (l : List HostEvent) : (s.withPending l).zseen = s.zseen := rfl
@[simp] theorem State.withPending_rdata (s : State) (l : List HostEvent) : (s.withPending l).rdata = s.rdata := rfl
@[simp] theorem State.withPending_pending (s : State) (l : List HostEvent) : (s.withPending l).pending = l := rfl

@[simp] theorem State.wipe_phase (s : State) : s.wipe.phase = State.reset.phase := rfl
@[simp] theorem State.wipe_err (s : State) : s.wipe.err = State.reset.err := rfl
@[simp] theorem State.wipe_errinfo (s : State) : s.wipe.errinfo = State.reset.errinfo := rfl
@[simp] theorem State.wipe_klen (s : State) : s.wipe.klen = State.reset.klen := rfl
@[simp] theorem State.wipe_ivlen (s : State) : s.wipe.ivlen = State.reset.ivlen := rfl
@[simp] theorem State.wipe_key (s : State) : s.wipe.key = State.reset.key := rfl
@[simp] theorem State.wipe_iv (s : State) : s.wipe.iv = State.reset.iv := rfl
@[simp] theorem State.wipe_nr (s : State) : s.wipe.nr = State.reset.nr := rfl
@[simp] theorem State.wipe_sReg (s : State) : s.wipe.sReg = State.reset.sReg := rfl
@[simp] theorem State.wipe_fReg (s : State) : s.wipe.fReg = State.reset.fReg := rfl
@[simp] theorem State.wipe_ib (s : State) : s.wipe.ib = State.reset.ib := rfl
@[simp] theorem State.wipe_icnt (s : State) : s.wipe.icnt = State.reset.icnt := rfl
@[simp] theorem State.wipe_ob (s : State) : s.wipe.ob = State.reset.ob := rfl
@[simp] theorem State.wipe_olen (s : State) : s.wipe.olen = State.reset.olen := rfl
@[simp] theorem State.wipe_ord (s : State) : s.wipe.ord = State.reset.ord := rfl
@[simp] theorem State.wipe_zseen (s : State) : s.wipe.zseen = State.reset.zseen := rfl
@[simp] theorem State.wipe_rdata (s : State) : s.wipe.rdata = State.reset.rdata := rfl
@[simp] theorem State.wipe_pending (s : State) : s.wipe.pending = s.pending := rfl

@[simp] theorem State.reset_phase : State.reset.phase = .unconf := rfl
@[simp] theorem State.reset_err : State.reset.err = 0x00#8 := rfl
@[simp] theorem State.reset_errinfo : State.reset.errinfo = 0x00#8 := rfl
@[simp] theorem State.reset_klen : State.reset.klen = 0x00#8 := rfl
@[simp] theorem State.reset_ivlen : State.reset.ivlen = 0x00#8 := rfl
@[simp] theorem State.reset_key : State.reset.key = Buf32.zero := rfl
@[simp] theorem State.reset_iv : State.reset.iv = Buf32.zero := rfl
@[simp] theorem State.reset_nr : State.reset.nr = 0x00#8 := rfl
@[simp] theorem State.reset_sReg : State.reset.sReg = Block.zero := rfl
@[simp] theorem State.reset_fReg : State.reset.fReg = Block.zero := rfl
@[simp] theorem State.reset_ib : State.reset.ib = Block.zero := rfl
@[simp] theorem State.reset_icnt : State.reset.icnt = 0 := rfl
@[simp] theorem State.reset_ob : State.reset.ob = Block.zero := rfl
@[simp] theorem State.reset_olen : State.reset.olen = 0 := rfl
@[simp] theorem State.reset_ord : State.reset.ord = 0 := rfl
@[simp] theorem State.reset_zseen : State.reset.zseen = false := rfl
@[simp] theorem State.reset_rdata : State.reset.rdata = none := rfl
@[simp] theorem State.reset_pending : State.reset.pending = [] := rfl

end Sys2Proof.Machine
end

