-- ==== Sys2Proof/Laws/Ops.lean ====
section
/-! SUPPORT. Everything the shared operations can do: the error action (R247), the frame of a write (R54, R249) and
of a command (R83). Proofs about an instruction cite these and never unfold them. -/

namespace Sys2Proof.Machine

variable {s t : State} {op : Byte} {legal : List Phase} {body : State → State}

/-- R247 with no error pending: the error is recorded. -/
theorem State.raise_of_clear (h : s.err = 0x00#8) (e : Error) (info : Byte) :
    s.raise e info = { s with err := errorCode e, errinfo := info } := if_pos h

/-- R247 with an error pending: nothing changes. -/
theorem State.raise_of_set (h : s.err ≠ 0x00#8) (e : Error) (info : Byte) : s.raise e info = s := if_neg h

/-- R247: nothing but `ERR` and `ERRINFO` can change. -/
theorem State.raise_frame (s : State) (e : Error) (info : Byte) :
    s.raise e info = { s with err := (s.raise e info).err, errinfo := (s.raise e info).errinfo } := by
  by_cases h : s.err = 0x00#8
  · rw [State.raise_of_clear h]
  · rw [State.raise_of_set h]

/-- R241: no error has the code `0x00`. -/
theorem errorCode_ne_zero (e : Error) : errorCode e ≠ 0x00#8 := by cases e <;> decide

/-- R247: after the error action an error is pending. -/
theorem State.raise_err_ne_zero (s : State) (e : Error) (info : Byte) : (s.raise e info).err ≠ 0x00#8 := by
  by_cases h : s.err = 0x00#8
  · rw [State.raise_of_clear h]; exact errorCode_ne_zero e
  · rwa [State.raise_of_set h]

/-- R54 with no error pending. -/
theorem guardedWrite_of_clear (h : s.err = 0x00#8) : guardedWrite body s = .next (body s.noAnswer) := if_pos h

/-- R249: with an error pending a write is dropped. -/
theorem guardedWrite_of_set (h : s.err ≠ 0x00#8) : guardedWrite body s = .next s.noAnswer := if_neg h

/-- A guarded write answers a next state, by one of its two cases. -/
theorem guardedWrite_cases (h : guardedWrite body s = .next t) :
    (s.err ≠ 0x00#8 ∧ t = s.noAnswer) ∨ (s.err = 0x00#8 ∧ t = body s.noAnswer) := by
  by_cases hs : s.err = 0x00#8
  · rw [guardedWrite_of_clear hs] at h; exact .inr ⟨hs, by simpa using h.symm⟩
  · rw [guardedWrite_of_set hs] at h; exact .inl ⟨hs, by simpa using h.symm⟩

/-- R83: a legal command does its body. -/
theorem command_of_legal (h : s.err = 0x00#8) (hp : s.phase ∈ legal) :
    command op legal body s = .next (body s.noAnswer) := by
  unfold command; rw [guardedWrite_of_clear h]; simp [hp]

/-- R83: a command that is not legal in the phase raises `E_PHASE`. -/
theorem command_of_illegal (h : s.err = 0x00#8) (hp : s.phase ∉ legal) :
    command op legal body s = .next { s with err := 0x11#8, errinfo := op, rdata := none } := by
  unfold command; rw [guardedWrite_of_clear h]; simp [hp, State.raise, State.noAnswer, h, errorCode]

/-- R249: with an error pending a command is dropped. -/
theorem command_of_set (h : s.err ≠ 0x00#8) : command op legal body s = .next s.noAnswer := guardedWrite_of_set h

/-- Everything a command can do. -/
theorem command_cases (h : command op legal body s = .next t) :
    (s.err ≠ 0x00#8 ∧ t = s.noAnswer) ∨
    (s.err = 0x00#8 ∧ s.phase ∉ legal ∧ t = { s with err := 0x11#8, errinfo := op, rdata := none }) ∨
    (s.err = 0x00#8 ∧ s.phase ∈ legal ∧ t = body s.noAnswer) := by
  by_cases hs : s.err = 0x00#8
  · by_cases hp : s.phase ∈ legal
    · rw [command_of_legal hs hp] at h; exact .inr (.inr ⟨hs, hp, by simpa using h.symm⟩)
    · rw [command_of_illegal hs hp] at h; exact .inr (.inl ⟨hs, hp, by simpa using h.symm⟩)
  · rw [command_of_set hs] at h; exact .inl ⟨hs, by simpa using h.symm⟩

/-- R8: `keyLenOf` finds exactly the lengths of the three key lengths. -/
theorem keyLenOf_eq_some {n : Nat} {l : KeyLen} : keyLenOf n = some l ↔ n = l.bytes := by
  unfold keyLenOf
  cases l <;> simp only [KeyLen.bytes] <;> split_ifs <;> simp_all

/-- R8: no other length is legal. -/
theorem keyLenOf_eq_none {n : Nat} : keyLenOf n = none ↔ n ≠ 16 ∧ n ≠ 24 ∧ n ≠ 32 := by
  unfold keyLenOf
  split_ifs <;> simp_all

end Sys2Proof.Machine
end

