-- ==== Sys2Proof/Laws/Operands.lean ====
section
/-! SUPPORT. Which register an address names (R52), said once for each row of the map, and what a plain write of a
register can do. -/

namespace Sys2Proof.Machine

theorem regAt_s (i : Fin 16) : regAt (BitVec.ofNat 8 (0x10 + i.val)) = .s i := by revert i; decide

theorem regAt_f (i : Fin 16) : regAt (BitVec.ofNat 8 (0x20 + i.val)) = .f i := by revert i; decide

theorem regAt_key (j : Fin 32) : regAt (BitVec.ofNat 8 (0x40 + j.val)) = .key j := by revert j; decide

theorem regAt_iv (j : Fin 32) : regAt (BitVec.ofNat 8 (0x60 + j.val)) = .iv j := by revert j; decide

/-- Only address `0x00` is the command port. -/
theorem regAt_eq_cmd {a : Byte} : regAt a = .cmd ↔ a = 0x00#8 := by revert a; decide +kernel

/-- Only address `0x09` is the input port. -/
theorem regAt_eq_din {a : Byte} : regAt a = .din ↔ a = 0x09#8 := by revert a; decide +kernel

/-- Only address `0x0A` is the output port. -/
theorem regAt_eq_dout {a : Byte} : regAt a = .dout ↔ a = 0x0A#8 := by revert a; decide +kernel

/-- R56: the three reserved ranges. -/
theorem regAt_eq_reserved {a : Byte} :
    regAt a = .reserved ↔
      (0x0B ≤ a.toNat ∧ a.toNat ≤ 0x0F) ∨ (0x30 ≤ a.toNat ∧ a.toNat ≤ 0x3F) ∨ 0x80 ≤ a.toNat := by
  revert a; decide +kernel

/-- Everything a plain write can store: a byte of one of five registers, in the phases of R52. -/
theorem writeReg_cases {r : Reg} {v : Byte} {s t : State} (h : writeReg r v s = some t) :
    (r = .klen ∧ s.phase = .unconf ∧ t = { s with klen := v }) ∨
    (r = .ivlen ∧ s.phase = .unconf ∧ t = { s with ivlen := v }) ∨
    (∃ i, r = .s i ∧ (s.phase = .unconf ∨ s.phase = .ready) ∧ t = { s with sReg := s.sReg.set i v }) ∨
    (∃ j, r = .key j ∧ s.phase = .unconf ∧ t = { s with key := s.key.set j v }) ∨
    (∃ j, r = .iv j ∧ s.phase = .unconf ∧ t = { s with iv := s.iv.set j v }) := by
  cases r <;> simp only [writeReg, Option.ite_none_right_eq_some, Option.some.injEq, reduceCtorEq] at h <;>
    simp [h.1, ← h.2]

end Sys2Proof.Machine
end

