-- ==== Sys2Proof/Laws/Stream.lean ====
section
/-! SUPPORT. The place of the first zero byte (R185), the two ways of keeping the head of a block (R179, R185), and
everything a `PUSH`, a block and a `POP` can do. -/

namespace Sys2Proof.Machine

variable {s t : State} {v : Byte}

/-- R185: no byte before `firstZero` is zero. -/
theorem ne_zero_before_firstZero (d : Block) (i : Fin 16) (h : i.val < (firstZero d).val) : d[i] ≠ 0x00#8 := by
  have := List.not_of_lt_findIdx (xs := d.toList) (p := (· == 0x00#8)) (i := i.val) h
  simpa using this

/-- R185: where `firstZero` is a place of the block, the byte there is zero. -/
theorem zero_at_firstZero (d : Block) (h : (firstZero d).val < 16) : d[(firstZero d).val] = 0x00#8 := by
  have := List.findIdx_getElem (xs := d.toList) (p := (· == 0x00#8)) (w := by simpa [firstZero] using h)
  simpa [firstZero] using this

@[simp] theorem keepBefore_get (z : Fin 17) (d : Block) (i : Fin 16) :
    (keepBefore z d)[i] = if i.val < z.val then d[i] else 0x00#8 := by simp [keepBefore]

@[simp] theorem keepBefore_getElem (z : Fin 17) (d : Block) (i : Nat) (h : i < 16) :
    (keepBefore z d)[i] = if i < z.val then d[i] else 0x00#8 := keepBefore_get z d ⟨i, h⟩

@[simp] theorem padFrom_get (n : Fin 16) (b : Block) (i : Fin 16) :
    (padFrom n b)[i] = if i.val < n.val then b[i] else 0x00#8 := by simp [padFrom]

@[simp] theorem padFrom_getElem (n : Fin 16) (b : Block) (i : Nat) (h : i < 16) :
    (padFrom n b)[i] = if i < n.val then b[i] else 0x00#8 := padFrom_get n b ⟨i, h⟩

/-- R34: output is unread exactly where `ORD < OLEN`. -/
theorem ocnt_eq_zero_iff : s.ocnt = 0 ↔ s.olen.val ≤ s.ord.val := Nat.sub_eq_zero_iff_le

/-- R185: everything a block of a Decrypt call can do. -/
theorem decBlock_cases (cfg : Config) (s : State) :
    (s.zseen = true ∧ decBlock cfg s = { s with fReg := s.nextKeystream cfg, ob := Block.zero, olen := 0, ord := 0 }) ∨
    (s.zseen = false ∧ ∃ d z, d = s.ib.xor (s.nextKeystream cfg) ∧ z = firstZero d ∧
      decBlock cfg s = { s with fReg := s.nextKeystream cfg, ob := keepBefore z d, olen := z, ord := 0,
                                zseen := decide (z.val < 16) }) := by
  cases h : s.zseen
  · exact .inr ⟨rfl, _, _, rfl, rfl, by simp [decBlock, h]⟩
  · exact .inl ⟨rfl, by simp [decBlock, h]⟩

/-- R176: everything a byte pushed inside a call can do. -/
theorem pushInCall_cases (process : State → State) (v : Byte) (s : State) :
    (s.icnt = 15 ∧ s.ocnt ≠ 0 ∧ pushInCall process v s = s.raise .overrun s.ocntByte) ∨
    (s.icnt = 15 ∧ s.ocnt = 0 ∧ pushInCall process v s = process { s with ib := s.ib.set s.icnt v, icnt := 0 }) ∨
    (s.icnt ≠ 15 ∧ pushInCall process v s = { s with ib := s.ib.set s.icnt v, icnt := s.icnt + 1 }) := by
  by_cases h : s.icnt = 15 <;> by_cases ho : s.ocnt = 0 <;> simp [pushInCall, h, ho]

/-- R188: everything a `POP` can do. -/
theorem popPort_cases (h : popPort s = .next t) :
    (s.err ≠ 0x00#8 ∧ t = s.answer 0x00#8) ∨
    (s.err = 0x00#8 ∧ s.ocnt = 0 ∧ t = { s with err := 0x14#8, errinfo := 0x00#8, rdata := some 0x00#8 }) ∨
    (s.err = 0x00#8 ∧ s.ocnt ≠ 0 ∧ ∃ (h : s.ord.val < s.olen.val),
      t = { s with ord := ⟨s.ord.val + 1, by omega⟩, rdata := some (s.ob[s.ord.val]'(by omega)) }) := by
  unfold popPort at h
  split at h
  · exact .inl ⟨‹_›, by simpa using h.symm⟩
  · rename_i he
    have he : s.err = 0x00#8 := not_not.mp he
    split at h
    · rename_i hl
      refine .inr (.inr ⟨he, fun h0 => ?_, hl, by simpa [State.answer] using h.symm⟩)
      exact absurd (ocnt_eq_zero_iff.mp h0) (Nat.not_le.mpr hl)
    · rename_i hl
      refine .inr (.inl ⟨he, ocnt_eq_zero_iff.mpr (Nat.not_lt.mp hl), ?_⟩)
      simpa [State.raise_of_clear he, State.answer, errorCode] using h.symm

end Sys2Proof.Machine
end

