-- ==== Sys2Proof/Laws/Dispatch.lean ====
section
/-! SUPPORT. The arms of `exec`, each by `rfl`; that `exec` and `step` are the machine with the parameters at the spec's
values (R41); and everything `WR`, `RD` and a write of `CMD` or `DIN` can do. -/

namespace Sys2Proof.Machine

variable {s t : State}

@[simp] theorem exec_nop (s : State) : exec .nop s = execNop s := rfl

@[simp] theorem exec_init (s : State) : exec .init s = execInit s := rfl

@[simp] theorem exec_destroy (s : State) : exec .destroy s = execDestroy s := rfl

@[simp] theorem exec_clrerr (s : State) : exec .clrerr s = execClrerr s := rfl

@[simp] theorem exec_abort (s : State) : exec .abort s = execAbort s := rfl

@[simp] theorem exec_encStart (s : State) : exec .encStart s = execEncStart s := rfl

@[simp] theorem exec_encFinal (s : State) : exec .encFinal s = execEncFinal s := rfl

@[simp] theorem exec_decStart (s : State) : exec .decStart s = execDecStart s := rfl

@[simp] theorem exec_decFinal (s : State) : exec .decFinal s = execDecFinal s := rfl

@[simp] theorem exec_cipher (s : State) : exec .cipher s = execCipher s := rfl

@[simp] theorem exec_invcipher (s : State) : exec .invcipher s = execInvcipher s := rfl

@[simp] theorem exec_subbytes (s : State) : exec .subbytes s = execSubbytes s := rfl

@[simp] theorem exec_invsubbytes (s : State) : exec .invsubbytes s = execInvsubbytes s := rfl

@[simp] theorem exec_shiftrows (s : State) : exec .shiftrows s = execShiftrows s := rfl

@[simp] theorem exec_invshiftrows (s : State) : exec .invshiftrows s = execInvshiftrows s := rfl

@[simp] theorem exec_mixcolumns (s : State) : exec .mixcolumns s = execMixcolumns s := rfl

@[simp] theorem exec_invmixcolumns (s : State) : exec .invmixcolumns s = execInvmixcolumns s := rfl

@[simp] theorem exec_addroundkey (s : State) : exec .addroundkey s = execAddroundkey s := rfl

@[simp] theorem exec_xtime (s : State) : exec .xtime s = execXtime s := rfl

@[simp] theorem exec_push (d : Byte) (s : State) : exec (.push d) s = execPush d s := rfl

@[simp] theorem exec_pop (s : State) : exec .pop s = execPop s := rfl

@[simp] theorem exec_wr (a d : Byte) (s : State) : exec (.wr a d) s = execWr a d s := rfl

@[simp] theorem exec_rd (a : Byte) (s : State) : exec (.rd a) s = execRd a s := rfl

/-- R41: `exec` is the machine with the parameters at the spec's values. -/
theorem exec_eq_execWith (i : Instr) (s : State) : exec i s = execWith coreConfig i s := by cases i <;> rfl

/-- R41: so is `step`. -/
theorem step_eq_stepWith (s : State) : step s = stepWith coreConfig s := by
  rw [step, stepWith, funext₂ exec_eq_execWith]

/-- R83: a byte that is no opcode raises `E_ILLCMD`. -/
theorem writeCmd_illegal {op : Byte} (h : op ∉ commandOpcodes) (cfg : Config) (s : State) :
    writeCmd cfg op s = illegalCommand op s := by
  simp [writeCmd, commandOf_eq_none h]

/-- R83, R217: a write of an opcode to `CMD` is its command. -/
theorem writeCmd_of_command {op : Byte} {i : Instr} (h : commandOf op = some i) (cfg : Config) (s : State) :
    writeCmd cfg op s = execWith cfg i s := by
  obtain ⟨hpush, hpop, hwr, hrd⟩ := commandOf_ne_access h
  cases i with
  | push d => exact absurd rfl (hpush d)
  | pop => exact absurd rfl hpop
  | wr a d => exact absurd rfl (hwr a d)
  | rd a => exact absurd rfl (hrd a)
  | _ => simp [writeCmd, h, execWith]

/-- R54: everything a `WR` can do. -/
theorem execWrWith_cases (cfg : Config) (a d : Byte) (s : State) :
    (a = 0x00#8 ∧ execWrWith cfg a d s = writeCmd cfg d s) ∨
    (a = 0x09#8 ∧ execWrWith cfg a d s = pushPort cfg d s) ∨
    (a ≠ 0x00#8 ∧ a ≠ 0x09#8 ∧ execWrWith cfg a d s = writePlain (regAt a) a d s) := by
  by_cases h0 : a = 0x00#8
  · exact .inl ⟨h0, by subst h0; rfl⟩
  · by_cases h9 : a = 0x09#8
    · exact .inr (.inl ⟨h9, by subst h9; rfl⟩)
    · refine .inr (.inr ⟨h0, h9, ?_⟩)
      have hc : regAt a ≠ .cmd := fun h => h0 (regAt_eq_cmd.mp h)
      have hd : regAt a ≠ .din := fun h => h9 (regAt_eq_din.mp h)
      unfold execWrWith
      split <;> simp_all

/-- R53: everything an `RD` can do. -/
theorem execRd_cases (a : Byte) (s : State) :
    (a = 0x0A#8 ∧ execRd a s = popPort s) ∨
    (a ≠ 0x0A#8 ∧ ∃ v, readReg (regAt a) s = some v ∧ execRd a s = .next (s.answer v)) ∨
    (a ≠ 0x0A#8 ∧ readReg (regAt a) s = none ∧ execRd a s = .next ((s.raise .access a).answer 0x00#8)) := by
  by_cases hA : a = 0x0A#8
  · exact .inl ⟨hA, by subst hA; rfl⟩
  · have hd : regAt a ≠ .dout := fun h => hA (regAt_eq_dout.mp h)
    have he : execRd a s = readPlain (regAt a) a s := by
      unfold execRd
      split <;> simp_all
    rw [he, readPlain]
    cases hr : readReg (regAt a) s with
    | none => exact .inr (.inr ⟨hA, rfl, rfl⟩)
    | some v => exact .inr (.inl ⟨hA, v, rfl, rfl⟩)

/-- R54: everything a plain write can do. -/
theorem writePlain_cases {r : Reg} {a v : Byte} (h : writePlain r a v s = .next t) :
    (s.err ≠ 0x00#8 ∧ t = s.noAnswer) ∨
    (s.err = 0x00#8 ∧ writeReg r v s.noAnswer = some t) ∨
    (s.err = 0x00#8 ∧ writeReg r v s.noAnswer = none ∧
      t = { s with err := 0x12#8, errinfo := a, rdata := none }) := by
  rcases guardedWrite_cases h with ⟨he, rfl⟩ | ⟨he, rfl⟩
  · exact .inl ⟨he, rfl⟩
  · cases hw : writeReg r v s.noAnswer with
    | some u => exact .inr (.inl ⟨he, by simp⟩)
    | none => exact .inr (.inr ⟨he, rfl, by simp [State.raise, State.noAnswer, he, errorCode]⟩)

/-- R54, R176: everything a write of `DIN` can do. -/
theorem pushPort_cases {cfg : Config} {v : Byte} (h : pushPort cfg v s = .next t) :
    (s.err ≠ 0x00#8 ∧ t = s.noAnswer) ∨
    (s.err = 0x00#8 ∧ (s.phase = .unconf ∨ s.phase = .ready) ∧
      t = { s with err := 0x12#8, errinfo := 0x09#8, rdata := none }) ∨
    (s.err = 0x00#8 ∧ s.phase = .enc ∧ t = pushInCall (encBlock cfg) v s.noAnswer) ∨
    (s.err = 0x00#8 ∧ s.phase = .dec ∧ t = pushInCall (decBlock cfg) v s.noAnswer) := by
  rcases guardedWrite_cases h with ⟨he, rfl⟩ | ⟨he, rfl⟩
  · exact .inl ⟨he, rfl⟩
  · cases hp : s.phase <;> simp [hp, he, State.raise, State.noAnswer, errorCode]

end Sys2Proof.Machine
end

