-- ==== Sys2Proof/Laws/Effect.lean ====
section
/-! SUPPORT. Once and for all, everything a transaction can do: `Effect` lists the cases, each with what it needs of
the instruction and the state, and `exec_effect` says that they are all. Whole-machine facts are proved by cases on
it. -/

namespace Sys2Proof.Machine

/-- R83, R217: the transaction is a write of the opcode `op` to `CMD`, in either of its two terms. -/
def Performs (i : Instr) (op : Byte) : Prop := commandOf op = some i ∨ i = .wr 0x00#8 op

/-- R54, R81: the transaction is a write of `v` to `DIN`, in either of its two terms. -/
def Pushes (i : Instr) (v : Byte) : Prop := i = .push v ∨ i = .wr 0x09#8 v

/-- R53, R81: the transaction is a read of `DOUT`, in either of its two terms. -/
def Pops (i : Instr) : Prop := i = .pop ∨ i = .rd 0x0A#8

/-- R31, R84: the opcodes of the commands that work on the working State. -/
def workingStateOpcodes : List Byte :=
  [0x20#8, 0x21#8, 0x30#8, 0x31#8, 0x32#8, 0x33#8, 0x34#8, 0x35#8, 0x36#8, 0x37#8]

/-- Everything a transaction can do to a state, for any parameters (R41). -/
inductive Effect (cfg : Config) (s : State) : Instr → State → Prop where
  /-- R249: a write while an error is pending. -/
  | dropped {i} (he : s.err ≠ 0x00#8) (hw : i.isWrite = true) : Effect cfg s i s.noAnswer
  /-- R211. -/
  | nop {i} (hi : Performs i 0x00#8) (he : s.err = 0x00#8) : Effect cfg s i s.noAnswer
  /-- R53: a read without a side effect, or R188: a `POP` while an error is pending. -/
  | answered {i} (v : Byte) (hr : i.isWrite = false) : Effect cfg s i (s.answer v)
  /-- R247: a refused write. -/
  | refusedWrite {i} (e : Error) (info : Byte) (he : s.err = 0x00#8) (hw : i.isWrite = true) :
      Effect cfg s i { s with err := errorCode e, errinfo := info, rdata := none }
  /-- R247: a refused read. -/
  | refusedRead {i} (e : Error) (info : Byte) (he : s.err = 0x00#8) (hr : i.isWrite = false) :
      Effect cfg s i { s with err := errorCode e, errinfo := info, rdata := some 0x00#8 }
  /-- R213. -/
  | destroyed {i} (hi : Performs i 0x02#8) : Effect cfg s i s.wipe
  /-- R214. -/
  | cleared {i} (hi : Performs i 0x03#8) : Effect cfg s i s.noAnswer.clearError
  /-- R212. -/
  | constructed {i} (l : KeyLen) (hi : Performs i 0x01#8) (he : s.err = 0x00#8) (hp : s.phase = .unconf)
      (hl : keyLenOf s.klen.toNat = some l) (hv : s.ivlen = s.klen) :
      Effect cfg s i { s with nr := cfg.nr l, phase := .ready, rdata := none }
  /-- R215. -/
  | aborted {i} (hi : Performs i 0x04#8) (he : s.err = 0x00#8) (hp : s.phase ≠ .unconf) :
      Effect cfg s i (s.noAnswer.dropBuffers.setPhase .ready)
  /-- R172. -/
  | encStarted {i} (hi : Performs i 0x10#8) (he : s.err = 0x00#8) (hp : s.phase = .ready) (ho : s.ocnt = 0) :
      Effect cfg s i { s.noAnswer.dropBuffers with fReg := s.ivm cfg, phase := .enc }
  /-- R182. -/
  | decStarted {i} (hi : Performs i 0x12#8) (he : s.err = 0x00#8) (hp : s.phase = .ready) (ho : s.ocnt = 0) :
      Effect cfg s i { s.noAnswer.dropBuffers with fReg := s.ivm cfg, phase := .dec }
  /-- R120, R154, R155: a command on the working State. -/
  | transformed {i} (op : Byte) (b : Block) (hi : Performs i op) (hop : op ∈ workingStateOpcodes)
      (he : s.err = 0x00#8) (hp : s.phase = .unconf ∨ s.phase = .ready) : Effect cfg s i (s.noAnswer.setS b)
  /-- R217: a plain write of the working State. -/
  | storedS {i} (j : Fin 16) (v : Byte) (hi : ∃ a, i = .wr a v ∧ regAt a = .s j) (he : s.err = 0x00#8)
      (hp : s.phase = .unconf ∨ s.phase = .ready) : Effect cfg s i (s.noAnswer.setS (s.sReg.set j v))
  /-- R217: a plain write of the key, the IV or a length. -/
  | staged {i} (key iv : Buf32) (klen ivlen : Byte)
      (hi : ∃ a v, i = .wr a v ∧ a ≠ 0x00#8 ∧ a ≠ 0x09#8) (he : s.err = 0x00#8) (hp : s.phase = .unconf) :
      Effect cfg s i { s with key := key, iv := iv, klen := klen, ivlen := ivlen, rdata := none }
  /-- R176: a byte that completes no block. -/
  | pushed {i} (v : Byte) (hi : Pushes i v) (he : s.err = 0x00#8) (hp : s.phase = .enc ∨ s.phase = .dec)
      (hc : s.icnt ≠ 15) : Effect cfg s i { s with ib := s.ib.set s.icnt v, icnt := s.icnt + 1, rdata := none }
  /-- R176 to R178: a byte that completes a block of an Encrypt call. -/
  | encrypted {i} (v : Byte) (hi : Pushes i v) (he : s.err = 0x00#8) (hp : s.phase = .enc) (hc : s.icnt = 15)
      (ho : s.ocnt = 0) : Effect cfg s i (encBlock cfg { s with ib := s.ib.set s.icnt v, icnt := 0, rdata := none })
  /-- R176, R177, R184, R185: a byte that completes a block of a Decrypt call. -/
  | decrypted {i} (v : Byte) (hi : Pushes i v) (he : s.err = 0x00#8) (hp : s.phase = .dec) (hc : s.icnt = 15)
      (ho : s.ocnt = 0) : Effect cfg s i (decBlock cfg { s with ib := s.ib.set s.icnt v, icnt := 0, rdata := none })
  /-- R179 without a part-filled block. -/
  | encEnded {i} (hi : Performs i 0x11#8) (he : s.err = 0x00#8) (hp : s.phase = .enc) (hc : s.icnt = 0) :
      Effect cfg s i (s.noAnswer.setPhase .ready)
  /-- R179 with a part-filled block. -/
  | encPadded {i} (hi : Performs i 0x11#8) (he : s.err = 0x00#8) (hp : s.phase = .enc) (hc : s.icnt ≠ 0)
      (ho : s.ocnt = 0) :
      Effect cfg s i ((encBlock cfg { s with ib := padFrom s.icnt s.ib, icnt := 0, rdata := none }).setPhase .ready)
  /-- R186. -/
  | decEnded {i} (hi : Performs i 0x13#8) (he : s.err = 0x00#8) (hp : s.phase = .dec) (hc : s.icnt = 0) :
      Effect cfg s i (s.noAnswer.setPhase .ready)
  /-- R188. -/
  | popped {i} (hi : Pops i) (he : s.err = 0x00#8) (hl : s.ord.val < s.olen.val) :
      Effect cfg s i { s with ord := ⟨s.ord.val + 1, by omega⟩, rdata := some (s.ob[s.ord.val]'(by omega)) }

variable {cfg : Config} {s t : State} {i : Instr}

/-- A write of an opcode is a write. -/
theorem Performs.isWrite {op : Byte} (h : Performs i op) : i.isWrite = true := by
  rcases h with h | rfl
  · have key : ∀ op : Byte, ∀ i ∈ commandOf op, i.isWrite = true := by decide +kernel
    exact key op i h
  · rfl

/-- For a well-formed instruction, a write of a known opcode is that command. -/
theorem Performs.eq_of_wellFormed {op : Byte} {c : Instr} (h : Performs i op) (hc : commandOf op = some c)
    (hw : i.wellFormed = true) : i = c := by
  rcases h with h | rfl
  · rw [h] at hc; exact Option.some.inj hc
  · have := (commandOf_eq_some hc).1
    simp [Instr.wellFormed, this] at hw

/-- A command, by its three cases, as an effect. -/
theorem command_effect {op : Byte} {legal : List Phase} {body : State → State}
    (hw : i.isWrite = true) (h : command op legal body s = .next t)
    (hb : s.err = 0x00#8 → s.phase ∈ legal → Effect cfg s i (body s.noAnswer)) : Effect cfg s i t := by
  rcases command_cases h with ⟨he, rfl⟩ | ⟨he, _, rfl⟩ | ⟨he, hp, rfl⟩
  · exact .dropped he hw
  · exact .refusedWrite .phase op he hw
  · exact hb he hp

/-- The error action inside a write, as an effect. -/
theorem raise_effect (he : s.err = 0x00#8) (hw : i.isWrite = true) (e : Error) (info : Byte) :
    Effect cfg s i (s.noAnswer.raise e info) := by
  rw [State.raise_of_clear (by simpa using he)]
  exact .refusedWrite e info he hw

/-- R54, R176: a write of `DIN`. -/
theorem pushPort_effect {v : Byte} (hi : Pushes i v) (h : pushPort cfg v s = .next t) : Effect cfg s i t := by
  have hw : i.isWrite = true := by rcases hi with rfl | rfl <;> rfl
  rcases pushPort_cases h with ⟨he, rfl⟩ | ⟨he, _, rfl⟩ | ⟨he, hp, rfl⟩ | ⟨he, hp, rfl⟩
  · exact .dropped he hw
  · exact .refusedWrite .access 0x09#8 he hw
  · rcases pushInCall_cases (encBlock cfg) v s.noAnswer with ⟨hc, ho, hr⟩ | ⟨hc, ho, hr⟩ | ⟨hc, hr⟩ <;> rw [hr]
    · exact raise_effect he hw _ _
    · exact .encrypted v hi he hp hc ho
    · exact .pushed v hi he (.inl hp) hc
  · rcases pushInCall_cases (decBlock cfg) v s.noAnswer with ⟨hc, ho, hr⟩ | ⟨hc, ho, hr⟩ | ⟨hc, hr⟩ <;> rw [hr]
    · exact raise_effect he hw _ _
    · exact .decrypted v hi he hp hc ho
    · exact .pushed v hi he (.inr hp) hc

/-- R188: a read of `DOUT`. -/
theorem popPort_effect (hi : Pops i) (h : popPort s = .next t) : Effect cfg s i t := by
  have hr : i.isWrite = false := by rcases hi with rfl | rfl <;> rfl
  rcases popPort_cases h with ⟨_, rfl⟩ | ⟨he, _, rfl⟩ | ⟨he, _, hl, rfl⟩
  · exact .answered _ hr
  · exact .refusedRead .underrun 0x00#8 he hr
  · exact .popped hi he hl

/-- R54: a plain write. -/
theorem writePlain_effect {a v : Byte} (h0 : a ≠ 0x00#8) (h9 : a ≠ 0x09#8)
    (h : writePlain (regAt a) a v s = .next t) : Effect cfg s (.wr a v) t := by
  rcases writePlain_cases h with ⟨he, rfl⟩ | ⟨he, hw⟩ | ⟨he, _, rfl⟩
  · exact .dropped he rfl
  · have hi : ∃ a' v', Instr.wr a v = .wr a' v' ∧ a' ≠ 0x00#8 ∧ a' ≠ 0x09#8 := ⟨a, v, rfl, h0, h9⟩
    rcases writeReg_cases hw with ⟨_, hp, rfl⟩ | ⟨_, hp, rfl⟩ | ⟨j, hj, hp, rfl⟩ | ⟨j, _, hp, rfl⟩ | ⟨j, _, hp, rfl⟩
    · exact .staged s.key s.iv v s.ivlen hi he hp
    · exact .staged s.key s.iv s.klen v hi he hp
    · exact .storedS j v ⟨a, rfl, hj⟩ he hp
    · exact .staged (s.key.set j v) s.iv s.klen s.ivlen hi he hp
    · exact .staged s.key (s.iv.set j v) s.klen s.ivlen hi he hp
  · exact .refusedWrite .access a he rfl

/-- A start command's body. -/
theorem startCall_effect (he : s.err = 0x00#8) (hw : i.isWrite = true) (p : Phase)
    (hb : s.ocnt = 0 → Effect cfg s i { s.noAnswer.dropBuffers with fReg := s.ivm cfg, phase := p }) :
    Effect cfg s i (startCall cfg p s.noAnswer) := by
  unfold startCall
  split
  · exact hb ‹_›
  · exact raise_effect he hw _ _

/-- A command on the working State, whose body writes some `b`. -/
theorem transform_effect {op : Byte} {legal : List Phase} {body : State → State} (b : Block) (hi : Performs i op)
    (h : command op legal body s = .next t) (ho : op ∈ workingStateOpcodes)
    (hl : s.phase ∈ legal → s.phase = .unconf ∨ s.phase = .ready) (hb : body s.noAnswer = s.noAnswer.setS b) :
    Effect cfg s i t :=
  command_effect hi.isWrite h fun he hp => hb ▸ .transformed op b hi ho he (hl hp)

/-- R212. -/
theorem init_effect (hi : Performs i 0x01#8) (h : execInitWith cfg s = .next t) : Effect cfg s i t := by
  have hw := hi.isWrite
  refine command_effect hw h fun he hp => ?_
  have hp : s.phase = .unconf := by simpa using hp
  unfold initBody
  cases hk : keyLenOf s.klen.toNat with
  | none => simpa [hk] using raise_effect he hw .keylen s.klen
  | some l =>
    by_cases hv : s.ivlen = s.klen
    · simpa [hk, hv, State.noAnswer] using Effect.constructed l hi he hp hk hv
    · simpa [hk, hv] using raise_effect he hw .ivlen s.ivlen

/-- R179. -/
theorem encFinal_effect (hi : Performs i 0x11#8) (h : execEncFinalWith cfg s = .next t) : Effect cfg s i t := by
  have hw := hi.isWrite
  refine command_effect hw h fun he hp => ?_
  have hp : s.phase = .enc := by simpa using hp
  unfold encFinalBody
  split
  · exact .encEnded hi he hp ‹_›
  · split
    · exact raise_effect he hw _ _
    · exact .encPadded hi he hp ‹_› (not_not.mp ‹_›)

/-- R186. -/
theorem decFinal_effect (hi : Performs i 0x13#8) (h : execDecFinal s = .next t) : Effect cfg s i t := by
  have hw := hi.isWrite
  refine command_effect hw h fun he hp => ?_
  have hp : s.phase = .dec := by simpa using hp
  unfold decFinalBody
  split
  · exact .decEnded hi he hp ‹_›
  · exact raise_effect he hw _ _

/-- R83: the command `c` with the opcode `op`, performed by a transaction `i` in either of its two terms. -/
theorem performed_effect {op : Byte} {c : Instr} (hc : commandOf op = some c) (hi : Performs i op)
    (h : execWith cfg c s = .next t) : Effect cfg s i t := by
  have hw := hi.isWrite
  obtain ⟨hpush, hpop, hwr, hrd⟩ := commandOf_ne_access hc
  obtain rfl := commandOf_opcode hc
  unfold execWith at h
  have ready : s.phase ∈ [Phase.ready] → s.phase = .unconf ∨ s.phase = .ready := by simp +contextual
  have idle : s.phase ∈ [Phase.unconf, .ready] → s.phase = .unconf ∨ s.phase = .ready := by simp
  cases c with
  | push d => exact absurd rfl (hpush d)
  | pop => exact absurd rfl hpop
  | wr a d => exact absurd rfl (hwr a d)
  | rd a => exact absurd rfl (hrd a)
  | nop => exact command_effect hw h fun he _ => .nop hi he
  | init => exact init_effect hi h
  | destroy =>
    have : t = s.wipe := by simpa [execWith, execDestroy] using h.symm
    exact this ▸ .destroyed hi
  | clrerr =>
    have : t = s.noAnswer.clearError := by simpa [execWith, execClrerr] using h.symm
    exact this ▸ .cleared hi
  | abort => exact command_effect hw h fun he hp => .aborted hi he (by rintro h; simp [h] at hp)
  | encStart =>
    exact command_effect hw h fun he hp => startCall_effect he hw .enc (.encStarted hi he (by simpa using hp))
  | decStart =>
    exact command_effect hw h fun he hp => startCall_effect he hw .dec (.decStarted hi he (by simpa using hp))
  | encFinal => exact encFinal_effect hi h
  | decFinal => exact decFinal_effect hi h
  | cipher => exact transform_effect _ hi h (by decide) ready rfl
  | invcipher => exact transform_effect _ hi h (by decide) ready rfl
  | addroundkey => exact transform_effect _ hi h (by decide) ready rfl
  | subbytes => exact transform_effect _ hi h (by decide) idle rfl
  | invsubbytes => exact transform_effect _ hi h (by decide) idle rfl
  | shiftrows => exact transform_effect _ hi h (by decide) idle rfl
  | invshiftrows => exact transform_effect _ hi h (by decide) idle rfl
  | mixcolumns => exact transform_effect _ hi h (by decide) idle rfl
  | invmixcolumns => exact transform_effect _ hi h (by decide) idle rfl
  | xtime => exact transform_effect _ hi h (by decide) idle rfl

/-- R83: a command in its own term. -/
theorem own_effect (hc : commandOf (encode i).wdata = some i) (h : execWith cfg i s = .next t) : Effect cfg s i t :=
  performed_effect hc (.inl hc) h

/-- Everything a transaction can do, for any parameters. -/
theorem execWith_effect (h : execWith cfg i s = .next t) : Effect cfg s i t := by
  cases i with
  | push d => exact pushPort_effect (.inl rfl) h
  | pop => exact popPort_effect (.inl rfl) h
  | wr a d =>
    rcases execWrWith_cases cfg a d s with ⟨rfl, hw⟩ | ⟨rfl, hw⟩ | ⟨h0, h9, hw⟩ <;> rw [execWith, hw] at h
    · cases hc : commandOf d with
      | some c => rw [writeCmd_of_command hc] at h; exact performed_effect hc (.inr rfl) h
      | none =>
        have hd : d ∉ commandOpcodes := fun hm => by
          have := commandOf_isSome d
          simp [hc, hm] at this
        rw [writeCmd_illegal hd] at h
        rcases guardedWrite_cases h with ⟨he, rfl⟩ | ⟨he, rfl⟩
        · exact .dropped he rfl
        · exact raise_effect he rfl _ _
    · exact pushPort_effect (.inr rfl) h
    · exact writePlain_effect h0 h9 h
  | rd a =>
    rcases execRd_cases a s with ⟨rfl, hr⟩ | ⟨_, v, _, hr⟩ | ⟨_, _, hr⟩ <;> rw [execWith, hr] at h
    · exact popPort_effect (.inr rfl) h
    · have : t = s.answer v := by simpa using h.symm
      exact this ▸ .answered v rfl
    · by_cases he : s.err = 0x00#8
      · rw [State.raise_of_clear he] at h
        have : t = { s with err := errorCode .access, errinfo := a, rdata := some 0x00#8 } := by
          simpa [State.answer] using h.symm
        exact this ▸ .refusedRead .access a he rfl
      · rw [State.raise_of_set he] at h
        have : t = s.answer 0x00#8 := by simpa using h.symm
        exact this ▸ .answered _ rfl
  | _ => exact own_effect rfl h

/-- Everything a transaction can do with the parameters at the spec's values. -/
theorem exec_effect (h : exec i s = .next t) : Effect coreConfig s i t :=
  execWith_effect ((exec_eq_execWith i s).symm.trans h)

end Sys2Proof.Machine
end

