-- ==== Sys2Proof/Laws/Field.lean ====
section
/-! SUPPORT. The linearity of doubling (R102) and the contract of the two tables (R104), each said once. -/

namespace Sys2Proof.Machine

@[simp] theorem xtime_zero : xtime 0x00#8 = 0x00#8 := by decide

/-- XOR may be taken in any order; with `BitVec.xor_assoc` and `BitVec.xor_comm` it sorts a sum. -/
theorem xor_left_comm (a b c : Byte) : a ^^^ (b ^^^ c) = b ^^^ (a ^^^ c) := by ac_rfl

/-- A byte XORed into both sides cancels. -/
theorem xor_xor_cancel (a b k : Byte) : (a ^^^ k) ^^^ (b ^^^ k) = a ^^^ b := by
  simp [BitVec.xor_comm b k, BitVec.xor_assoc]

/-- R102 (b): doubling is linear over XOR. -/
theorem xtime_xor (a b : Byte) : xtime (a ^^^ b) = xtime a ^^^ xtime b := by
  unfold xtime
  rw [BitVec.getLsbD_xor, BitVec.shiftLeft_xor_distrib]
  cases a.getLsbD 7 <;> cases b.getLsbD 7
  · rfl
  · exact BitVec.xor_assoc _ _ _
  · simp only [Bool.xor_false, if_true, Bool.false_eq_true, if_false]; ac_rfl
  · exact (xor_xor_cancel _ _ _).symm

/-- R104 for the tables of R105 and R106, by looking up all 256 bytes. -/
theorem invSbox_sbox (x : Byte) : invSbox (sbox x) = x := by
  have h : ∀ x : Byte, invSbox (sbox x) = x := by decide +kernel
  exact h x

/-- R104: the left inverse is an inverse on both sides. -/
theorem sbox_invSbox (y : Byte) : sbox (invSbox y) = y := by
  have h : ∀ y : Byte, sbox (invSbox y) = y := by decide +kernel
  exact h y

end Sys2Proof.Machine
end

