-- ==== Sys2Proof/Laws/PerInstr.lean ====
section
/-! SUPPORT. Facts said of every instruction as syntax, one lemma per constructor (LAWS.json). -/

namespace Sys2Proof.Laws.Direction

/-- R51, R80: bit 16 of an instruction's word is 1 exactly where the transaction is a write. -/
def Statement (i : Instr) : Prop := (encode i).we = i.isWrite

theorem nop : Statement .nop := by simp [Statement, encode, Instr.isWrite]

theorem init : Statement .init := by simp [Statement, encode, Instr.isWrite]

theorem destroy : Statement .destroy := by simp [Statement, encode, Instr.isWrite]

theorem clrerr : Statement .clrerr := by simp [Statement, encode, Instr.isWrite]

theorem abort : Statement .abort := by simp [Statement, encode, Instr.isWrite]

theorem encStart : Statement .encStart := by simp [Statement, encode, Instr.isWrite]

theorem encFinal : Statement .encFinal := by simp [Statement, encode, Instr.isWrite]

theorem decStart : Statement .decStart := by simp [Statement, encode, Instr.isWrite]

theorem decFinal : Statement .decFinal := by simp [Statement, encode, Instr.isWrite]

theorem cipher : Statement .cipher := by simp [Statement, encode, Instr.isWrite]

theorem invcipher : Statement .invcipher := by simp [Statement, encode, Instr.isWrite]

theorem subbytes : Statement .subbytes := by simp [Statement, encode, Instr.isWrite]

theorem invsubbytes : Statement .invsubbytes := by simp [Statement, encode, Instr.isWrite]

theorem shiftrows : Statement .shiftrows := by simp [Statement, encode, Instr.isWrite]

theorem invshiftrows : Statement .invshiftrows := by simp [Statement, encode, Instr.isWrite]

theorem mixcolumns : Statement .mixcolumns := by simp [Statement, encode, Instr.isWrite]

theorem invmixcolumns : Statement .invmixcolumns := by simp [Statement, encode, Instr.isWrite]

theorem addroundkey : Statement .addroundkey := by simp [Statement, encode, Instr.isWrite]

theorem xtime : Statement .xtime := by simp [Statement, encode, Instr.isWrite]

theorem push (d : Byte) : Statement (.push d) := by simp [Statement, encode, Instr.isWrite]

theorem pop : Statement .pop := by simp [Statement, encode, Instr.isWrite]

theorem wr (a d : Byte) : Statement (.wr a d) := by simp [Statement, encode, Instr.isWrite]

theorem rd (a : Byte) : Statement (.rd a) := by simp [Statement, encode, Instr.isWrite]

end Sys2Proof.Laws.Direction
end

