-- ==== Sys2Proof/Laws/Script.lean ====
section
/-! SUPPORT. Running a host's script: two scripts one after the other, what a `POP` and a `DRAIN` return, and that the
parameters of CORE meet their contract. -/

namespace Sys2Proof.Machine

variable {cfg : Config} {s : State}

/-- The parameters at the spec's values meet the contract the spec puts on them (R104, R10, R14). -/
theorem coreConfig_lawful : coreConfig.Lawful where
  invSbox_sbox := invSbox_sbox
  nr_range l := by cases l <;> decide
  keymap_16 b := Block.ext_get fun i => by simp [coreConfig, firstBlock]
  ivmap_16 b := Block.ext_get fun i => by simp [coreConfig, firstBlock]

/-- A script in two parts. -/
theorem transactAll_append (cfg : Config) (a b : List Instr) (s : State) :
    transactAll cfg (a ++ b) s =
      (transactAll cfg a s).bind fun p => (transactAll cfg b p.1).bind fun q => some (q.1, p.2 ++ q.2) := by
  induction a generalizing s with
  | nil => simp [transactAll]
  | cons i a ih =>
    simp only [List.cons_append, transactAll, ih]
    cases transact cfg i s with
    | none => rfl
    | some t =>
      simp only [Option.bind_eq_bind, Option.bind_some]
      cases transactAll cfg a t with
      | none => rfl
      | some p => obtain ⟨u, bytes⟩ := p; cases h : transactAll cfg b u <;> simp [h]

/-- R188: a `POP` with unread output and no error. -/
theorem transact_pop (he : s.err = 0x00#8) (h : s.ord.val < s.olen.val) :
    transact cfg .pop s =
      some { s with ord := ⟨s.ord.val + 1, by omega⟩, rdata := some (s.ob[s.ord.val]'(by omega)) } := by
  simp [transact, execWith, execPop, popPort, he, Fin.lt_def, h, State.answer]

/-- R188: `k` pops return the next `k` bytes of `OB`, in order. -/
theorem transactAll_pops (k : Nat) : ∀ (s : State), s.err = 0x00#8 → ∀ h : s.ord.val + k ≤ s.olen.val,
    ∃ r, transactAll cfg (List.replicate k .pop) s =
      some ({ s with ord := ⟨s.ord.val + k, by omega⟩, rdata := r }, (s.ob.toList.drop s.ord.val).take k) := by
  induction k with
  | zero => exact fun s _ _ => ⟨s.rdata, by simp [transactAll]⟩
  | succ k ih =>
    intro s he h
    obtain ⟨r, hr⟩ := ih { s with ord := ⟨s.ord.val + 1, by omega⟩, rdata := some (s.ob[s.ord.val]'(by omega)) } he
      (by simp only; omega)
    refine ⟨r, ?_⟩
    simp only [List.replicate_succ, transactAll, transact_pop he (by omega), Option.bind_eq_bind, Option.bind_some, hr]
    have hd := List.drop_eq_getElem_cons (l := s.ob.toList) (i := s.ord.val) (by simp; omega)
    simp [hd, Nat.add_assoc, Nat.add_comm 1 k]

/-- R89: a `DRAIN` with no error pending returns the unread output, in order, and leaves none. -/
theorem drain_spec (he : s.err = 0x00#8) (h : s.ord.val ≤ s.olen.val) :
    ∃ r, drain cfg s =
      some ({ s with ord := s.olen, rdata := r }, (s.ob.toList.take s.olen.val).drop s.ord.val) := by
  obtain ⟨r, hr⟩ := transactAll_pops (cfg := cfg) (s.olen.val - s.ord.val) { s with rdata := some s.ocntByte } he
    (by simp only; omega)
  have hn : s.ocntByte.toNat = s.olen.val - s.ord.val := by simp [State.ocntByte, State.ocnt]; omega
  have hread : transact cfg (.rd 0x08#8) s = some { s with rdata := some s.ocntByte } := rfl
  have hord : (⟨s.ord.val + (s.olen.val - s.ord.val), by omega⟩ : Fin 17) = s.olen := Fin.ext (by simp only; omega)
  refine ⟨r, ?_⟩
  simp only [drain, hread, Option.bind_eq_bind, Option.bind_some, hn, hr]
  simp [hord, List.drop_take]

end Sys2Proof.Machine
end

