-- ==== Sys2Proof/Laws/Transforms.lean ====
section
/-! SUPPORT. What each byte or cell of a transformed State is (R121 to R138), and the linearity of the column
mixing (R129, R131). -/

namespace Sys2Proof.Machine

variable (cfg : Config) (m k : Block)

@[simp] theorem subBytes_cell (r c : Fin 4) : (subBytes cfg m).cell r c = cfg.sbox (m.cell r c) := by simp [subBytes]

@[simp] theorem invSubBytes_cell (r c : Fin 4) : (invSubBytes cfg m).cell r c = cfg.invSbox (m.cell r c) := by
  simp [invSubBytes]

@[simp] theorem shiftRows_cell (r c : Fin 4) : (shiftRows m).cell r c = m.cell r (c + r) := by simp [shiftRows]

@[simp] theorem invShiftRows_cell (r c : Fin 4) : (invShiftRows m).cell r c = m.cell r (c - r) := by
  simp [invShiftRows]

@[simp] theorem addRoundKey_cell (r c : Fin 4) : (addRoundKey m k).cell r c = m.cell r c ^^^ k.cell r c := by
  simp [addRoundKey]

@[simp] theorem mixColumns_column (c : Fin 4) : (mixColumns m).column c = mixColumn (m.column c) := by
  simp [mixColumns]

@[simp] theorem invMixColumns_column (c : Fin 4) : (invMixColumns m).column c = invMixColumn (m.column c) := by
  simp [invMixColumns]

/-- R121 in buffer terms. -/
theorem subBytes_get (i : Fin 16) : (subBytes cfg m)[i] = cfg.sbox m[i] := by
  rw [Block.get_eq_cell, subBytes_cell, ← Block.get_eq_cell]

/-- R123 in buffer terms. -/
theorem invSubBytes_get (i : Fin 16) : (invSubBytes cfg m)[i] = cfg.invSbox m[i] := by
  rw [Block.get_eq_cell, invSubBytes_cell, ← Block.get_eq_cell]

/-- R138 in buffer terms. -/
theorem addRoundKey_get (i : Fin 16) : (addRoundKey m k)[i] = m[i] ^^^ k[i] := by
  rw [Block.get_eq_cell, addRoundKey_cell, ← Block.get_eq_cell, ← Block.get_eq_cell]

/-- Two Blocks with the same four columns are equal. -/
theorem ext_column {a b : Block} (h : ∀ c, a.column c = b.column c) : a = b := by
  rw [← Block.ofColumns_column a, ← Block.ofColumns_column b, funext h]

end Sys2Proof.Machine
end

