-- ==== Sys2Proof/Tests/Slice0.lean ====
section
/-! SUPPORT. The model's own tests: the refusals of `wellFormed`, the decoding of words written out from R80, R84 and
R85, one step of each instruction with its result from a worked example of the spec, and for each obligation with
hypotheses a state and operands that meet them. -/

namespace Sys2Proof.Tests

open Sys2Proof.Machine

/-- One transaction, where it answers a next state. -/
def run (i : Instr) (s : State) : Option State :=
  match exec i s with
  | .next t => some t
  | .fault _ => none
  | .refused _ => none

/-! ### States the tests start from -/

/-- Two lengths staged, no instance. -/
def staged (klen ivlen : Byte) : State := { State.reset with klen := klen, ivlen := ivlen }

/-- An instance with key and IV zero, `KLEN = 16`. -/
def ready : State := { State.reset with phase := .ready, klen := 16#8, ivlen := 16#8, nr := 10#8 }

/-- The same instance with another key length (R8, R10). -/
def readyOf (l : KeyLen) : State :=
  { ready with klen := BitVec.ofNat 8 l.bytes, ivlen := BitVec.ofNat 8 l.bytes, nr := coreConfig.nr l }

/-- An Encrypt call of that instance. -/
def enc : State := { ready with phase := .enc }

/-- A Decrypt call of that instance. -/
def dec : State := { ready with phase := .dec }

/-- One byte short of a block. -/
def full (s : State) : State := { s with icnt := 15 }

/-- Thirteen of sixteen output bytes unread. -/
def unread (s : State) : State :=
  { s with ob := #v[1, 2, 3, 4, 5, 6, 7, 8, 9, 10, 11, 12, 13, 14, 15, 16], olen := 16, ord := 3 }

/-- `E_PHASE(0x20)` pending. -/
def failed (s : State) : State := { s with err := 0x11#8, errinfo := 0x20#8 }

/-- The working State `00 01 .. 0f` of the worked examples. -/
def counting : Block := #v[0, 1, 2, 3, 4, 5, 6, 7, 8, 9, 10, 11, 12, 13, 14, 15]

/-- That working State, in `UNCONF`. -/
def withS (b : Block) : State := { State.reset with sReg := b }

/-! ### Well-formedness: one ill-formed term for each check -/

/-- R81: a write of `DIN` is `PUSH`. -/
theorem test_wr_din_ill_formed : (Instr.wr 0x09#8 0x41#8).wellFormed = false := by decide

/-- R81: a write of an opcode to `CMD` is its command. -/
theorem test_wr_cmd_opcode_ill_formed : (Instr.wr 0x00#8 0x01#8).wellFormed = false := by decide

/-- R81: a read of `DOUT` is `POP`. -/
theorem test_rd_dout_ill_formed : (Instr.rd 0x0A#8).wellFormed = false := by decide

/-- R86: a write of an illegal opcode to `CMD` has no other term. -/
theorem test_wr_cmd_illegal_well_formed : (Instr.wr 0x00#8 0x05#8).wellFormed = true := by decide

/-! ### Decoding, from the words of R84 and R85 written bit by bit as `we addr wdata` -/

theorem test_decode_nop : decode 0b10000000000000000#17 = .nop := by decide
theorem test_decode_init : decode 0b10000000000000001#17 = .init := by decide
theorem test_decode_destroy : decode 0b10000000000000010#17 = .destroy := by decide
theorem test_decode_clrerr : decode 0b10000000000000011#17 = .clrerr := by decide
theorem test_decode_abort : decode 0b10000000000000100#17 = .abort := by decide
theorem test_decode_encStart : decode 0b10000000000010000#17 = .encStart := by decide
theorem test_decode_encFinal : decode 0b10000000000010001#17 = .encFinal := by decide
theorem test_decode_decStart : decode 0b10000000000010010#17 = .decStart := by decide
theorem test_decode_decFinal : decode 0b10000000000010011#17 = .decFinal := by decide
theorem test_decode_cipher : decode 0b10000000000100000#17 = .cipher := by decide
theorem test_decode_invcipher : decode 0b10000000000100001#17 = .invcipher := by decide
theorem test_decode_subbytes : decode 0b10000000000110000#17 = .subbytes := by decide
theorem test_decode_invsubbytes : decode 0b10000000000110001#17 = .invsubbytes := by decide
theorem test_decode_shiftrows : decode 0b10000000000110010#17 = .shiftrows := by decide
theorem test_decode_invshiftrows : decode 0b10000000000110011#17 = .invshiftrows := by decide
theorem test_decode_mixcolumns : decode 0b10000000000110100#17 = .mixcolumns := by decide
theorem test_decode_invmixcolumns : decode 0b10000000000110101#17 = .invmixcolumns := by decide
theorem test_decode_addroundkey : decode 0b10000000000110110#17 = .addroundkey := by decide
theorem test_decode_xtime : decode 0b10000000000110111#17 = .xtime := by decide
/-- R85: `1 00001001 dddddddd`, the byte `0x41`. -/
theorem test_decode_push : decode 0b10000100101000001#17 = .push 0x41#8 := by decide
/-- R85: `0 00001010 xxxxxxxx`, with ignored bits set. -/
theorem test_decode_pop : decode 0b00000101010100101#17 = .pop := by decide
/-- R85: `1 aaaaaaaa dddddddd`, the address `0x45` and the byte `0xab`. -/
theorem test_decode_wr : decode 0b10100010110101011#17 = .wr 0x45#8 0xab#8 := by decide
/-- R85, R82: `0 aaaaaaaa xxxxxxxx`, the words `0x00100` and `0x001ff` of spec/95 2.9. -/
theorem test_decode_rd : decode 0b00000000100000000#17 = .rd 0x01#8 ∧ decode 0b00000000111111111#17 = .rd 0x01#8 := by
  decide
/-- R86: the first illegal opcode, `0x05`. -/
theorem test_decode_illegal : decode 0b10000000000000101#17 = .wr 0x00#8 0x05#8 := by decide
/-- R80: a number of 18 bits is no transaction. -/
theorem test_decode_too_wide : decodeTableWord 17 0x20000 = none := by decide

/-! ### One step of each instruction -/

/-- R211. -/
theorem test_nop : run .nop enc = some enc := by decide

/-- R212's worked example: `NR = 10`, `STATUS = 0x01`. -/
theorem test_init : (run .init (staged 16#8 16#8)).map (fun t => (t.nr, t.status)) =
    some (10#8, 0x01#8) := by decide

/-- R244: `KLEN = 20, IVLEN = 24` gives `E_KEYLEN(20)`. -/
theorem test_init_keylen_first :
    (run .init (staged 20#8 24#8)).map (fun t => (t.err, t.errinfo, t.phase)) =
      some (0x01#8, 0x14#8, .unconf) := by decide

/-- R213's worked example: phase `ENC`, `ERR = 0x13`. -/
theorem test_destroy : run .destroy { unread enc with err := 0x13#8, errinfo := 0x0d#8 } = some State.reset := by
  decide

/-- R214's worked example. -/
theorem test_clrerr : run .clrerr (failed State.reset) = some State.reset := by decide

/-- R215's worked example: `STATUS = 0x01`, `ICNT = 0`, `OCNT = 0`. -/
theorem test_abort :
    (run .abort { unread dec with icnt := 5, zseen := true }).map (fun t => (t.status, t.icnt, t.ocnt)) =
      some (0x01#8, 0, 0) := by decide

/-- R172's worked example: `F` takes the IV, `STATUS = 0x02`. -/
theorem test_encStart :
    (run .encStart { ready with iv := ready.iv.set 1 0x01#8, fReg := counting }).map
        (fun t => (t.fReg.toList.take 3, t.status)) = some ([0x00#8, 0x01#8, 0x00#8], 0x02#8) := by decide

/-- R172: unread output refuses the start. -/
theorem test_encStart_overrun :
    (run .encStart (unread ready)).map (fun t => (t.err, t.errinfo, t.phase)) = some (0x13#8, 13#8, .ready) := by
  decide

/-- R179's worked example: key and IV zero, the plaintext `0x41`. -/
theorem test_encFinal :
    (run .encFinal { enc with ib := enc.ib.set 0 0x41#8, icnt := 1 }).map
        (fun t => (t.fReg, t.ob.toList.take 2, t.ocnt, t.phase)) =
      some (Vector.replicate 16 0x36#8, [0x77#8, 0x36#8], 16, .ready) := by decide +kernel

/-- R182's worked example: `STATUS = 0x03`. -/
theorem test_decStart : (run .decStart ready).map (fun t => t.status) = some 0x03#8 := by decide

/-- R186's worked example: `ICNT = 5`. -/
theorem test_decFinal :
    (run .decFinal { dec with icnt := 5 }).map (fun t => (t.err, t.errinfo, t.phase)) =
      some (0x03#8, 0x05#8, .dec) := by decide

/-- R186: `ZSEEN` keeps its value into `READY`. -/
theorem test_decFinal_zseen :
    (run .decFinal { dec with zseen := true }).map (fun t => (t.zseen, t.phase)) = some (true, .ready) := by decide

/-- R154's corner case: key and State zero, ten rounds. -/
theorem test_cipher : (run .cipher ready).map (fun t => t.sReg) = some (Vector.replicate 16 0x36#8) := by
  decide +kernel

/-- R155's worked example: `S = fc 5b 22 eb 84 45 58 0e 2e 95 71 ab d4 25 10 1b`. -/
theorem test_invcipher :
    (run .invcipher { ready with sReg := counting }).map (fun t => t.sReg) =
      some #v[0xfc#8, 0x5b#8, 0x22#8, 0xeb#8, 0x84#8, 0x45#8, 0x58#8, 0x0e#8, 0x2e#8, 0x95#8, 0x71#8, 0xab#8, 0xd4#8,
        0x25#8, 0x10#8, 0x1b#8] := by decide +kernel

/-- R122's worked example. -/
theorem test_subbytes :
    (run .subbytes (withS counting)).map (fun t => t.sReg) =
      some #v[0x63#8, 0x7c#8, 0x77#8, 0x7b#8, 0xf2#8, 0x6b#8, 0x6f#8, 0xc5#8, 0x30#8, 0x01#8, 0x67#8, 0x2b#8, 0xfe#8,
        0xd7#8, 0xab#8, 0x76#8] := by decide

/-- R124's worked example. -/
theorem test_invsubbytes :
    (run .invsubbytes (withS counting)).map (fun t => t.sReg) =
      some #v[0x52#8, 0x09#8, 0x6a#8, 0xd5#8, 0x30#8, 0x36#8, 0xa5#8, 0x38#8, 0xbf#8, 0x40#8, 0xa3#8, 0x9e#8, 0x81#8,
        0xf3#8, 0xd7#8, 0xfb#8] := by decide

/-- R126's worked example. -/
theorem test_shiftrows :
    (run .shiftrows (withS counting)).map (fun t => t.sReg) =
      some #v[0x00#8, 0x05#8, 0x0a#8, 0x0f#8, 0x04#8, 0x09#8, 0x0e#8, 0x03#8, 0x08#8, 0x0d#8, 0x02#8, 0x07#8, 0x0c#8,
        0x01#8, 0x06#8, 0x0b#8] := by decide

/-- R128's worked example. -/
theorem test_invshiftrows :
    (run .invshiftrows (withS counting)).map (fun t => t.sReg) =
      some #v[0x00#8, 0x0d#8, 0x0a#8, 0x07#8, 0x04#8, 0x01#8, 0x0e#8, 0x0b#8, 0x08#8, 0x05#8, 0x02#8, 0x0f#8, 0x0c#8,
        0x09#8, 0x06#8, 0x03#8] := by decide

/-- R129's worked example: `[db, 13, 53, 45]`. -/
theorem test_mixColumn : mixColumn ⟨0xdb#8, 0x13#8, 0x53#8, 0x45#8⟩ = ⟨0x8e#8, 0x4d#8, 0xa1#8, 0xbc#8⟩ := by decide

/-- R131's worked example. -/
theorem test_mixcolumns :
    (run .mixcolumns (withS counting)).map (fun t => t.sReg) =
      some #v[0x02#8, 0x07#8, 0x00#8, 0x05#8, 0x06#8, 0x03#8, 0x04#8, 0x01#8, 0x0a#8, 0x0f#8, 0x08#8, 0x0d#8, 0x0e#8,
        0x0b#8, 0x0c#8, 0x09#8] := by decide

/-- R134's worked example. -/
theorem test_invmixcolumns :
    (run .invmixcolumns (withS counting)).map (fun t => t.sReg) =
      some #v[0x0a#8, 0x0f#8, 0x08#8, 0x0d#8, 0x0e#8, 0x0b#8, 0x0c#8, 0x09#8, 0x02#8, 0x07#8, 0x00#8, 0x05#8, 0x06#8,
        0x03#8, 0x04#8, 0x01#8] := by decide

/-- R139's corner case: on a zero State the key's first sixteen bytes appear. -/
theorem test_addroundkey :
    (run .addroundkey { ready with key := (ready.key.set 15 0xaf#8).set 16 0xb0#8 }).map (fun t => t.sReg) =
      some (Block.zero.set 15 0xaf#8) := by decide

/-- R139 with R29: of 32 key bytes the first sixteen enter and the others do not. -/
theorem test_addroundkey_k32 :
    (run .addroundkey { readyOf .k32 with key := (ready.key.set 15 0xaf#8).set 16 0xb0#8 }).map
        (fun t => t.sReg) = some (Block.zero.set 15 0xaf#8) := by decide

/-- R139: no key matrix in `UNCONF`. -/
theorem test_addroundkey_unconf :
    (run .addroundkey State.reset).map (fun t => (t.err, t.errinfo)) = some (0x11#8, 0x36#8) := by decide

/-- spec/95 2.1: bytes on both sides of the reduction. -/
theorem test_xtime :
    (run .xtime (withS ((Block.zero.set 0 0x7f#8).set 1 0x80#8))).map (fun t => t.sReg.toList.take 3) =
      some [0xfe#8, 0x1b#8, 0x00#8] := by decide

/-- R176's worked example: `ICNT = 3`, `PUSH 0x41`. -/
theorem test_push :
    run (.push 0x41#8) { enc with icnt := 3 } = some { enc with icnt := 4, ib := enc.ib.set 3 0x41#8 } := by decide

/-- spec/95 2.8, V2: the ciphertext whose first byte decrypts to zero yields nothing and sets `ZSEEN`. -/
theorem test_push_zero_first :
    (run (.push 0x39#8) { full dec with
        ib := #v[0x36#8, 0x37#8, 0x34#8, 0x35#8, 0x32#8, 0x33#8, 0x30#8, 0x31#8, 0x3e#8, 0x3f#8, 0x3c#8, 0x3d#8, 0x3a#8,
          0x3b#8, 0x38#8, 0x00#8] }).map (fun t => (t.status, t.ocnt, t.fReg)) =
      some (0x0b#8, 0, Vector.replicate 16 0x36#8) := by decide +kernel

/-- R188: the next byte in order. -/
theorem test_pop : (run .pop (unread enc)).map (fun t => (t.rdata, t.ocnt)) = some (some 0x04#8, 12) := by decide

/-- R188: nothing to pop. -/
theorem test_pop_underrun :
    (run .pop dec).map (fun t => (t.rdata, t.err, t.errinfo)) = some (some 0x00#8, 0x14#8, 0x00#8) := by decide

/-- R217's worked example: `WR 0x45, 0xAB` in `UNCONF`. -/
theorem test_wr : (run (.wr 0x45#8 0xab#8) State.reset).map (fun t => t.key[5]) = some 0xab#8 := by decide

/-- R217's worked example: the same in `READY`. -/
theorem test_wr_locked :
    (run (.wr 0x45#8 0xab#8) ready).map (fun t => (t.err, t.errinfo, t.key[5])) =
      some (0x12#8, 0x45#8, 0x00#8) := by decide

/-- R216's worked example: a key byte. -/
theorem test_rd_key :
    (run (.rd 0x40#8) State.reset).map (fun t => (t.rdata, t.err, t.errinfo)) =
      some (some 0x00#8, 0x12#8, 0x40#8) := by decide

/-- R36: `STATUS = 0x22`, as spec/95 2.8 gives it after one `PUSH` of an Encrypt call. -/
theorem test_rd_status : (run (.rd 0x01#8) { enc with icnt := 1 }).map (fun t => t.rdata) =
    some (some 0x22#8) := by decide

/-- R270: the reset input. -/
theorem test_reset_event : step { unread (failed dec) with pending := [.reset] } = .next State.reset := rfl

/-- R101's worked examples and R102's eight doublings. -/
theorem test_xtime_function : xtime 0x57#8 = 0xae#8 ∧ xtime 0xae#8 = 0x47#8 ∧ xtime^[8] 0x57#8 = 0x70#8 := by decide

/-! ### Witnesses: the hypotheses of the obligations can be met -/

/-- The bounds of the four illegal ranges of R86, and a well-formed term of each shape. -/
theorem witness_DecodeOfEncodeIsTheInstruction :
    Instr.nop.wellFormed = true ∧ (Instr.wr 0x00#8 0x38#8).wellFormed = true ∧
    (Instr.wr 0xff#8 0xff#8).wellFormed = true ∧ (Instr.push 0xff#8).wellFormed = true ∧
    (Instr.rd 0x09#8).wellFormed = true ∧ (Instr.rd 0x0B#8).wellFormed = true := by
  decide

theorem witness_ReadsIgnoreTheDataByte :
    0x00#8 ∈ commandOpcodes ∧ 0x37#8 ∈ commandOpcodes ∧ 0x08#8 ≠ 0x00#8 ∧ 0x08#8 ≠ 0x09#8 ∧ 0x0A#8 ≠ 0x09#8 := by decide

theorem witness_ReservedEncodingsAreRefused :
    (∀ op ∈ [0x05#8, 0x0F#8, 0x14#8, 0x1F#8, 0x22#8, 0x2F#8, 0x38#8, 0xFF#8], op ∉ commandOpcodes) ∧
    State.reset.err = 0x00#8 ∧
    (∀ a ∈ [0x0B#8, 0x0F#8, 0x30#8, 0x3F#8, 0x80#8, 0xFF#8], (0x0B ≤ a.toNat ∧ a.toNat ≤ 0x0F) ∨
      (0x30 ≤ a.toNat ∧ a.toNat ≤ 0x3F) ∨ (0x80 ≤ a.toNat ∧ a.toNat ≤ 0xFF)) := by decide

/-- Two events pending, the first a transaction whose instruction is well-formed. -/
theorem witness_StepRunsTheDecodedTransaction :
    ({ ready with pending := [.bus (encode (.rd 0x01#8)), .reset] } : State).pending =
      .bus (encode (.rd 0x01#8)) :: [.reset] ∧ (Instr.rd 0x01#8).wellFormed = true := ⟨rfl, by decide⟩

theorem witness_StepWithoutTransaction :
    State.reset.pending = [] ∧ ({ dec with pending := [.reset, .reset] } : State).pending = .reset :: [.reset] :=
  ⟨rfl, rfl⟩

/-- R43 holds inside a call with output unread. -/
theorem inv_unread_enc : (unread enc).Inv coreConfig where
  ord_le_olen := by decide
  nr_unconf := by decide
  lengths _ := ⟨.k16, by decide, by decide, by decide⟩
  icnt_idle := by decide
  out_unconf := by decide
  zseen_enc := by decide
  errinfo_clear := by decide
  err_code := by decide

theorem witness_EveryStepKeepsTheInvariant :
    (unread enc).Inv coreConfig ∧
      (∃ t, step { unread enc with pending := [.bus (encode .abort)] } = .next t ∧ t.phase = .ready) ∧
      ∃ t, stepWith coreConfig { unread enc with pending := [.bus (encode .abort)] } = .next t ∧ t.phase = .ready :=
  ⟨inv_unread_enc, ⟨_, rfl, by decide⟩, _, rfl, by decide⟩

theorem witness_DecryptOutputHasNoZeroByte :
    (unread dec).DecOutputNonzero ∧ (unread dec).phase = .dec ∧ (unread dec).err = 0x00#8 ∧ (unread dec).ocnt ≠ 0 ∧
      ∃ t, step (unread dec) = .next t := ⟨fun _ => by decide, by decide, by decide, by decide, _, rfl⟩

theorem witness_NoOtherPhaseTransition :
    Instr.init.wellFormed = true ∧ ∃ t, exec .init (staged 32#8 32#8) = .next t ∧ t.phase = .ready :=
  ⟨by decide, _, rfl, by decide⟩

/-- A refused write and a refused read. -/
theorem witness_ARefusedTransactionHasNoPartialEffect :
    (ready.err = 0x00#8 ∧ ∃ t, exec (.wr 0x04#8 0x18#8) ready = .next t ∧ t.err ≠ 0x00#8) ∧
    (∃ t, exec .pop ready = .next t ∧ t.err ≠ 0x00#8) := ⟨⟨by decide, _, rfl, by decide⟩, _, rfl, by decide⟩

theorem witness_EveryErrorHasItsCauseAndCode :
    Instr.init.wellFormed = true ∧ (staged 0x10#8 0x18#8).err = 0x00#8 ∧ (staged 0x10#8 0x18#8).errinfo = 0x00#8 ∧
      ∃ t, exec .init (staged 0x10#8 0x18#8) = .next t ∧ t.err = 0x02#8 ∧ t.errinfo = 0x18#8 :=
  ⟨by decide, by decide, by decide, _, rfl, by decide, by decide⟩

theorem witness_CommandsAreLegalInTheirPhasesOnly :
    commandOf 0x20#8 = some .cipher ∧ ready.err = 0x00#8 ∧ ready.phase ∈ legalPhases .cipher ∧
      enc.phase ∉ legalPhases .cipher := by decide

theorem witness_FailStopWhileAnErrorIsPending :
    (failed ready).err ≠ 0x00#8 ∧ Instr.encStart.wellFormed = true ∧ Instr.encStart.isWrite = true ∧
      Instr.encStart ≠ .clrerr ∧ Instr.encStart ≠ .destroy ∧
      (0x7F#8 ≠ 0x0A#8 ∧ readReg (regAt 0x7F#8) (failed ready) = some 0x00#8) ∧
      (0x40#8 ≠ 0x0A#8 ∧ readReg (regAt 0x40#8) (failed ready) = none) := by decide

/-- Both errors, both applying at once, and the three legal lengths. -/
theorem witness_InitConstructsTheInstance :
    State.reset.err = 0x00#8 ∧ State.reset.phase = .unconf ∧ ready.phase ≠ .unconf ∧
      ((staged 20#8 24#8).klen ≠ 16#8 ∧ (staged 20#8 24#8).klen ≠ 24#8 ∧ (staged 20#8 24#8).klen ≠ 32#8) ∧
      ((staged 16#8 24#8).klen = 16#8 ∧ (staged 16#8 24#8).ivlen ≠ (staged 16#8 24#8).klen) ∧
      ((staged 24#8 24#8).klen = 24#8 ∧ (staged 24#8 24#8).ivlen = 24#8) ∧
      ((staged 32#8 32#8).klen = 32#8 ∧ (staged 32#8 32#8).ivlen = 32#8) := by decide

theorem witness_NopDoesNothingAndAbortDropsTheCall :
    (dec.err = 0x00#8 ∧ dec.phase ≠ .unconf) ∧ (State.reset.err = 0x00#8 ∧ State.reset.phase = .unconf) ∧
      (failed dec).err ≠ 0x00#8 := by decide

theorem witness_InitIsTheSourcesConstruction :
    ((List.replicate 17 0x00#8 : List Byte).length ≠ 16 ∧ (List.replicate 17 0x00#8 : List Byte).length ≠ 24 ∧
      (List.replicate 17 0x00#8 : List Byte).length ≠ 32) ∧
    ((List.replicate 24 0x01#8 : List Byte).length = KeyLen.k24.bytes ∧
      (List.replicate 16 0x02#8 : List Byte).length ≠ (List.replicate 24 0x01#8 : List Byte).length) ∧
    ((staged 32#8 32#8).err = 0x00#8 ∧ (staged 32#8 32#8).phase = .unconf ∧ (staged 32#8 32#8).klen.toNat ≤ 32 ∧
      (staged 32#8 32#8).ivlen.toNat ≤ 32) := by decide

theorem witness_BringUpBuildsTheInstance :
    (List.replicate 32 0x01#8 : List Byte).length = KeyLen.k32.bytes ∧
      (List.replicate 32 0x02#8 : List Byte).length = (List.replicate 32 0x01#8 : List Byte).length := by decide

theorem witness_TheInstanceIsImmutable :
    (Instr.wr 0x60#8 0x01#8).wellFormed = true ∧ (∃ t, exec (.wr 0x60#8 0x01#8) ready = .next t ∧ t.err = 0x12#8) ∧
      ready.phase ≠ .unconf ∧ Instr.wr 0x60#8 0x01#8 ≠ .destroy :=
  ⟨by decide, ⟨_, rfl, by decide⟩, by decide, by decide⟩

/-- The ends of every range that no read may name. -/
theorem witness_ReadsFollowTheAddressMap :
    ∀ a ∈ [0x00#8, 0x09#8, 0x0B#8, 0x0F#8, 0x30#8, 0x3F#8, 0x40#8, 0x5F#8, 0x80#8, 0xFF#8],
      a.toNat = 0x00 ∨ a.toNat = 0x09 ∨ (0x0B ≤ a.toNat ∧ a.toNat ≤ 0x0F) ∨ (0x30 ≤ a.toNat ∧ a.toNat ≤ 0x5F) ∨
        0x80 ≤ a.toNat := by decide

/-- A state for each clause, and the ends of the ranges of the last one. -/
theorem witness_WritesFollowTheAddressMap :
    commandOf 0x37#8 = some .xtime ∧
    ((failed ready).err ≠ 0x00#8 ∧ ¬ (0x00#8 = 0x00#8 ∧ (0x04#8 = 0x03#8 ∨ 0x04#8 = 0x02#8))) ∧
    0x38#8 ∉ commandOpcodes ∧ (State.reset.err = 0x00#8 ∧ State.reset.phase = .unconf) ∧
    (ready.err = 0x00#8 ∧ (ready.phase = .unconf ∨ ready.phase = .ready)) ∧
    (enc.err = 0x00#8 ∧ ∀ a ∈ [0x01#8, 0x03#8, 0x04#8, 0x05#8, 0x06#8, 0x08#8, 0x0A#8, 0x0F#8, 0x10#8, 0x1F#8, 0x20#8,
      0x3F#8, 0x40#8, 0x7F#8, 0x80#8, 0xFF#8],
      (0x01 ≤ a.toNat ∧ a.toNat ≤ 0x03) ∨ (0x06 ≤ a.toNat ∧ a.toNat ≤ 0x08) ∨ (0x0A ≤ a.toNat ∧ a.toNat ≤ 0x0F) ∨
      (0x20 ≤ a.toNat ∧ a.toNat ≤ 0x3F) ∨ 0x80 ≤ a.toNat ∨
      (enc.phase ≠ .unconf ∧ (a.toNat = 0x04 ∨ a.toNat = 0x05 ∨ (0x40 ≤ a.toNat ∧ a.toNat ≤ 0x7F))) ∨
      ((enc.phase = .enc ∨ enc.phase = .dec) ∧ 0x10 ≤ a.toNat ∧ a.toNat ≤ 0x1F)) ∧
    (ready.phase = .ready ∧ (0x09#8).toNat = 0x09) := by decide

theorem witness_NoReadRevealsTheKey : (Instr.rd 0x40#8).isWrite = false ∧ Instr.pop.isWrite = false := by decide

theorem witness_KeyAndIvMatricesAreTheFirstSixteenBytes :
    ready.klen = 16#8 ∧ ready.ivlen = 16#8 ∧ (readyOf .k24).klen = 24#8 ∧ (readyOf .k24).ivlen = 24#8 ∧
      (readyOf .k32).klen = 32#8 ∧ (readyOf .k32).ivlen = 32#8 := by decide

theorem witness_OnlyItsCommandsWriteTheWorkingState :
    Instr.xtime.wellFormed = true ∧ ∃ t, exec .xtime (withS counting) = .next t ∧ t.sReg ≠ counting :=
  ⟨by decide, _, rfl, by decide⟩

theorem witness_OnlyCallsWriteTheFeedbackRegister :
    Instr.decStart.wellFormed = true ∧
      ∃ t, exec .decStart { ready with fReg := counting } = .next t ∧ t.fReg ≠ counting :=
  ⟨by decide, _, rfl, by decide⟩

/-- The ends of the range of the exponents below the period. -/
theorem witness_XtimeIsDoublingInTheField : (0 < 1 ∧ 1 < 51) ∧ (0 < 50 ∧ 50 < 51) ∧ xtime 0x00#8 = 0x00#8 := by decide

/-- The four phases, with no error: for XTIME and the six key-independent transforms. -/
theorem witness_transform_commands :
    State.reset.err = 0x00#8 ∧ State.reset.phase = .unconf ∧ ready.err = 0x00#8 ∧ ready.phase = .ready ∧
      enc.err = 0x00#8 ∧ enc.phase = .enc ∧ dec.err = 0x00#8 ∧ dec.phase = .dec := by decide

/-- For the laws that ask for a lawful table and at least one round. -/
theorem witness_lawful_tables_and_rounds : coreConfig.Lawful ∧ 1 ≤ 1 ∧ 1 ≤ 14 :=
  ⟨coreConfig_lawful, by decide, by decide⟩

/-- The three legal lengths of the key, and a phase without a key matrix. -/
theorem witness_AddRoundKeyXorsTheKeyMatrix :
    (ready.err = 0x00#8 ∧ ready.phase = .ready ∧ ready.klen = 16#8) ∧
    (readyOf .k24).err = 0x00#8 ∧ (readyOf .k24).phase = .ready ∧ (readyOf .k24).klen = 24#8 ∧
    (readyOf .k32).err = 0x00#8 ∧ (readyOf .k32).phase = .ready ∧ (readyOf .k32).klen = 32#8 ∧
    (State.reset.err = 0x00#8 ∧ State.reset.phase ≠ .ready) := by decide

theorem witness_PipelineCommandsRunOnTheWorkingState :
    ready.err = 0x00#8 ∧ ready.phase = .ready ∧ enc.err = 0x00#8 ∧ enc.phase ≠ .ready := by decide

theorem witness_PipelineByHandEqualsCipher : ready.err = 0x00#8 ∧ ready.phase = .ready ∧ 1 ≤ ready.nr.toNat := by decide

theorem witness_StartCommandsOpenACall :
    (ready.err = 0x00#8 ∧ ready.phase = .ready ∧ ready.ocnt = 0) ∧
    ((unread ready).phase = .ready ∧ (unread ready).ocnt ≠ 0) ∧
    (State.reset.err = 0x00#8 ∧ State.reset.phase ≠ .ready) := by decide

/-- The last byte that completes no block, the byte that would, and the phases outside a call. -/
theorem witness_PushStoresTheNextByte :
    ({ enc with icnt := 14 } : State).icnt.val < 15 ∧ enc.icnt.val < 15 ∧ enc.err = 0x00#8 ∧ enc.phase = .enc ∧
    ((full (unread dec)).icnt = 15 ∧ (full (unread dec)).ocnt ≠ 0 ∧ (full (unread dec)).phase = .dec) ∧
    ready.phase = .ready ∧ State.reset.phase = .unconf := by decide

theorem witness_ACompletedBlockIsEncrypted :
    (full enc).err = 0x00#8 ∧ (full enc).phase = .enc ∧ (full enc).icnt = 15 ∧ (full enc).ocnt = 0 := by decide

theorem witness_ACompletedBlockIsDecrypted :
    (full dec).err = 0x00#8 ∧ (full dec).phase = .dec ∧ (full dec).icnt = 15 ∧ (full dec).ocnt = 0 ∧
      (full dec).zseen = false ∧ ({ full dec with zseen := true } : State).zseen = true := by decide

theorem witness_EncFinalPadsTheLastBlock :
    (enc.err = 0x00#8 ∧ enc.phase = .enc ∧ enc.icnt = 0) ∧
    ((full (unread enc)).icnt ≠ 0 ∧ (full (unread enc)).ocnt ≠ 0 ∧ (full (unread enc)).phase = .enc) ∧
    ((full enc).icnt ≠ 0 ∧ (full enc).ocnt = 0) ∧ ({ enc with icnt := 1 } : State).icnt ≠ 0 ∧
    dec.phase ≠ .enc := by decide

theorem witness_DecFinalChecksTheLength :
    (dec.err = 0x00#8 ∧ dec.phase = .dec ∧ dec.icnt = 0) ∧ (full dec).icnt ≠ 0 ∧ enc.phase ≠ .dec := by decide

/-- Nothing to pop, the last byte to pop, and an error pending. -/
theorem witness_PopTakesTheNextOutputByte :
    (failed enc).err ≠ 0x00#8 ∧ (enc.err = 0x00#8 ∧ enc.ocnt = 0) ∧
    ({ unread enc with ord := 15 } : State).ord.val < (unread enc).olen.val := by decide

theorem witness_AnOverrunIsRecoverable :
    (full (unread enc)).err = 0x00#8 ∧ (full (unread enc)).phase = .enc ∧ (full (unread enc)).icnt = 15 ∧
      (full (unread enc)).ord.val < (full (unread enc)).olen.val := by decide

/-- Two completed blocks of calls of different direction, one after a zero byte. -/
theorem witness_TheKeystreamIgnoresThePayload :
    ((full enc).err = 0x00#8 ∧ (full enc).phase = .enc ∧ (full enc).icnt = 15 ∧ (full enc).ocnt = 0) ∧
      (({ full dec with zseen := true } : State).err = 0x00#8 ∧ ({ full dec with zseen := true } : State).phase = .dec ∧
        ({ full dec with zseen := true } : State).icnt = 15 ∧ ({ full dec with zseen := true } : State).ocnt = 0) ∧
      (full enc).fReg = ({ full dec with zseen := true } : State).fReg ∧
      (full enc).km coreConfig = ({ full dec with zseen := true } : State).km coreConfig ∧
      (full enc).nr = ({ full dec with zseen := true } : State).nr ∧
      (full enc).fReg = keystream coreConfig ((full enc).inst coreConfig) 0 := by decide

/-- A fresh instance, `ready`, and the same one after a Decrypt call and a transform have used it. -/
def used : State :=
  { ready with sReg := counting, fReg := counting, ob := counting, olen := 16, ord := 16, zseen := true }

theorem witness_ACallDependsOnTheInstanceAndThePayloadOnly :
    (ready.err = 0x00#8 ∧ ready.phase = .ready ∧ ready.ocnt = 0) ∧
    (used.err = 0x00#8 ∧ used.phase = .ready ∧ used.ocnt = 0) ∧
    ready.key = used.key ∧ ready.iv = used.iv ∧ ready.klen = used.klen ∧ ready.ivlen = used.ivlen ∧
    ready.nr = used.nr := by decide

theorem witness_EncryptPadsAndXorsTheKeystream :
    16 * 0 + (15 : Fin 16).val < (encrypt coreConfig (ready.inst coreConfig) [0x41#8]).length := by
  simp [encrypt, xorStream, zeroPad]

theorem witness_DecryptUndoesEncryptUpToTheFirstZero :
    ([0x41#8] : List Byte).length % 16 ≠ 0 ∧ ([] : List Byte).length % 16 = 0 ∧
      (List.replicate 16 0x41#8 : List Byte).length % 16 = 0 ∧ 0x00#8 ∉ ([0x41#8, 0x42#8] : List Byte) := by decide

/-- For both calls, and for Decrypt a length of each kind. -/
theorem witness_TheProtocolRealisesTheCalls :
    (ready.err = 0x00#8 ∧ ready.phase = .ready ∧ ready.ocnt = 0) ∧
      (List.replicate 32 0x41#8 : List Byte).length % 16 = 0 ∧
      (List.replicate 21 0x41#8 : List Byte).length % 16 ≠ 0 := by decide

end Sys2Proof.Tests
end

/-! PROOFS. Family 10_state: one step of CORE, the invariant of R43, and what may write each state element (R20 to
R43 of spec/10_state.md). -/

namespace Sys2Proof.Machine

variable {cfg : Config} {s t : State} {i : Instr}

/-! ### One step -/

/-- R20: without an event nothing happens. -/
theorem answerEvent_of_nil (run : Instr → State → Result) (h : s.pending = []) : answerEvent run s = .next s := by
  simp [answerEvent, h]

/-- R270: the reset input. -/
theorem answerEvent_of_reset (run : Instr → State → Result) {rest : List HostEvent}
    (h : s.pending = .reset :: rest) : answerEvent run s = .next (s.withPending rest).wipe := by
  simp [answerEvent, h]

/-- R62: a transaction is decoded and run with its own event taken off the queue. -/
theorem answerEvent_of_bus (run : Instr → State → Result) {w : Word17} {rest : List HostEvent}
    (h : s.pending = .bus w :: rest) : answerEvent run s = run (decode w) (s.withPending rest) := by
  simp [answerEvent, h]

/-- Everything one step can do. -/
theorem answerEvent_cases {run : Instr → State → Result} (h : answerEvent run s = .next t) :
    t = s ∨ (∃ rest, t = (s.withPending rest).wipe) ∨ ∃ w rest, run (decode w) (s.withPending rest) = .next t := by
  cases hp : s.pending with
  | nil => rw [answerEvent_of_nil run hp] at h; exact .inl (Host.Outcome.next.inj h).symm
  | cons e rest =>
    cases e with
    | reset => rw [answerEvent_of_reset run hp] at h; exact .inr (.inl ⟨rest, (Host.Outcome.next.inj h).symm⟩)
    | bus w => rw [answerEvent_of_bus run hp] at h; exact .inr (.inr ⟨w, rest, h⟩)

/-- R81, R84: the opcode of a command decodes to it. -/
theorem decode_of_command {op : Byte} {c : Instr} (h : commandOf op = some c) :
    decode (transactionWord true 0x00#8 op) = c := by
  simp [decode, h]

/-- R81, R85: a well-formed instruction is decoded from its own word. -/
theorem decode_encode (hw : i.wellFormed = true) : decode (encode i) = i := by
  cases i with
  | push d => simp [encode, decode]
  | pop => simp [encode, decode]
  | rd a =>
    have ha : a ≠ 0x0A#8 := by simpa [Instr.wellFormed] using hw
    simp [encode, decode, ha]
  | wr a d =>
    simp only [Instr.wellFormed, Bool.and_eq_true, Bool.not_eq_true', beq_eq_false_iff_ne] at hw
    obtain ⟨h9, h0⟩ := hw
    by_cases ha : a = 0x00#8
    · have hd : d ∉ commandOpcodes := by simpa [ha] using h0
      simp [encode, decode, ha, commandOf_eq_none hd]
    · simp [encode, decode, ha, h9]
  | _ => exact decode_of_command rfl

/-! ### The invariant of R43 -/

/-- R43: the invariant does not speak of the bus's answer. -/
theorem State.Inv.noAnswer (h : s.Inv cfg) : s.noAnswer.Inv cfg := { h with }

theorem State.Inv.answer (h : s.Inv cfg) (v : Byte) : (s.answer v).Inv cfg := { h with }

theorem State.Inv.setS (h : s.Inv cfg) (b : Block) : (s.setS b).Inv cfg := { h with }

theorem State.Inv.withPending (h : s.Inv cfg) (rest : List HostEvent) : (s.withPending rest).Inv cfg := { h with }

/-- R43: the base case. -/
theorem State.Inv.reset (cfg : Config) : State.reset.Inv cfg where
  ord_le_olen := le_rfl
  nr_unconf _ := rfl
  lengths h := absurd rfl h
  icnt_idle _ := rfl
  out_unconf _ := ⟨rfl, rfl⟩
  zseen_enc _ := rfl
  errinfo_clear _ := rfl
  err_code := by decide

/-- R213, R270: a wiped CORE is the reset state with the host's events kept. -/
theorem State.Inv.wipe (cfg : Config) (s : State) : s.wipe.Inv cfg := (State.Inv.reset cfg).withPending s.pending

/-- R241: every error has a code of the table. -/
theorem errorCode_mem (e : Error) : errorCode e ∈ errorCodes := by cases e <;> decide

/-- R247: a refused transaction keeps the invariant. -/
theorem State.Inv.refused (h : s.Inv cfg) (e : Error) (info : Byte) (r : Option Byte) :
    State.Inv cfg { s with err := errorCode e, errinfo := info, rdata := r } :=
  { h with
    errinfo_clear := fun he => absurd he (errorCode_ne_zero e)
    err_code := errorCode_mem e }

theorem State.Inv.clearError (h : s.Inv cfg) : s.clearError.Inv cfg :=
  { h with
    errinfo_clear := fun _ => rfl
    err_code := List.mem_cons_self }

/-- R212: the instance that `INIT` builds has legal lengths and their round count. -/
theorem State.Inv.constructed (h : s.Inv cfg) {l : KeyLen} (hp : s.phase = .unconf)
    (hl : keyLenOf s.klen.toNat = some l) (hv : s.ivlen = s.klen) :
    State.Inv cfg { s with nr := cfg.nr l, phase := .ready, rdata := none } :=
  { h with
    nr_unconf := nofun
    lengths := fun _ => ⟨l, hl, hv, rfl⟩
    icnt_idle := fun _ => h.icnt_idle (.inl hp)
    out_unconf := nofun
    zseen_enc := nofun }

/-- R217: the key, the IV and the lengths are free as long as no instance exists. -/
theorem State.Inv.staged (h : s.Inv cfg) (hp : s.phase = .unconf) (key iv : Buf32) (klen ivlen : Byte) :
    State.Inv cfg { s with key := key, iv := iv, klen := klen, ivlen := ivlen, rdata := none } :=
  { h with lengths := fun hn => absurd hp hn }

/-- R172, R182, R215: with the buffers dropped, an instance may be in any of its phases, with any `F`. -/
theorem State.Inv.restarted (h : s.Inv cfg) (hs : s.phase ≠ .unconf) {p : Phase} (hp : p ≠ .unconf) (f : Block) :
    State.Inv cfg { s.dropBuffers with fReg := f, phase := p } :=
  { h with
    ord_le_olen := le_rfl
    nr_unconf := fun hu => absurd hu hp
    lengths := fun _ => h.lengths hs
    icnt_idle := fun _ => rfl
    out_unconf := fun hu => absurd hu hp
    zseen_enc := fun _ => rfl }

/-- R179, R186: a call ends with no part-filled block. -/
theorem State.Inv.setPhase_ready (h : s.Inv cfg) (hs : s.phase ≠ .unconf) (hc : s.icnt = 0) :
    (s.setPhase .ready).Inv cfg :=
  { h with
    nr_unconf := nofun
    lengths := fun _ => h.lengths hs
    icnt_idle := fun _ => hc
    out_unconf := nofun
    zseen_enc := nofun }

/-- R176: inside a call the input buffer and its count are free. -/
theorem State.Inv.filled (h : s.Inv cfg) (hp : s.phase = .enc ∨ s.phase = .dec) (ib : Block) (n : Fin 16) :
    State.Inv cfg { s with ib := ib, icnt := n, rdata := none } :=
  { h with icnt_idle := fun hi => by rcases hp with hp | hp <;> simp [hp] at hi }

/-- R177, R178: a block of an Encrypt call. -/
theorem State.Inv.encBlock (h : s.Inv cfg) (hp : s.phase = .enc) : (encBlock cfg s).Inv cfg :=
  { h with
    ord_le_olen := Nat.zero_le _
    out_unconf := fun hu => by simp [Machine.encBlock, hp] at hu }

/-- R177, R187: what a block of a Decrypt call leaves unchanged; `F` advances in any case. -/
theorem decBlock_frame (cfg : Config) (s : State) : ∃ ob olen zseen, decBlock cfg s =
    { s with fReg := s.nextKeystream cfg, ob := ob, olen := olen, ord := 0, zseen := zseen } := by
  rcases decBlock_cases cfg s with ⟨_, hd⟩ | ⟨_, _, _, _, _, hd⟩
  · exact ⟨_, _, s.zseen, hd⟩
  · exact ⟨_, _, _, hd⟩

/-- R177, R187: a block of a Decrypt call. -/
theorem State.Inv.decBlock (h : s.Inv cfg) (hp : s.phase = .dec) : (decBlock cfg s).Inv cfg := by
  obtain ⟨ob, olen, zseen, hd⟩ := decBlock_frame cfg s
  rw [hd]
  exact { h with
    ord_le_olen := Nat.zero_le _
    out_unconf := fun hu => by simp [hp] at hu
    zseen_enc := fun hu => by simp [hp] at hu }

/-- R188: a byte popped leaves `ORD` at most `OLEN`; without an instance there is none to pop. -/
theorem State.Inv.popped (h : s.Inv cfg) (hl : s.ord.val < s.olen.val) (r : Option Byte) :
    State.Inv cfg { s with ord := ⟨s.ord.val + 1, by omega⟩, rdata := r } :=
  { h with
    ord_le_olen := hl
    out_unconf := fun hp => absurd (ocnt_eq_zero_iff.mp (h.out_unconf hp).1) (Nat.not_le.mpr hl) }

/-- R43: everything a transaction can do keeps the invariant. -/
theorem Effect.keeps_inv (ht : Effect cfg s i t) (h : s.Inv cfg) : t.Inv cfg := by
  cases ht with
  | dropped | nop => exact h.noAnswer
  | answered v => exact h.answer v
  | refusedWrite e info => exact h.refused e info none
  | refusedRead e info => exact h.refused e info (some 0x00#8)
  | destroyed => exact .wipe cfg s
  | cleared => exact h.noAnswer.clearError
  | constructed l _ _ hp hl hv => exact h.constructed hp hl hv
  | aborted _ _ hp => exact h.noAnswer.restarted hp (by decide) s.fReg
  | encStarted _ _ hp | decStarted _ _ hp => exact h.noAnswer.restarted (by simp [hp]) (by decide) _
  | transformed _ b => exact h.noAnswer.setS b
  | storedS j v => exact h.noAnswer.setS _
  | staged key iv klen ivlen _ _ hp => exact h.staged hp key iv klen ivlen
  | pushed v _ _ hp => exact h.filled hp _ _
  | encrypted v _ _ hp => exact (h.filled (.inl hp) _ _).encBlock hp
  | decrypted v _ _ hp => exact (h.filled (.inr hp) _ _).decBlock hp
  | encEnded _ _ hp hc | decEnded _ _ hp hc => exact h.noAnswer.setPhase_ready (by simp [hp]) hc
  | encPadded _ _ hp =>
    exact ((h.filled (.inl hp) _ _).encBlock hp).setPhase_ready (by simp [Machine.encBlock, hp]) rfl
  | popped _ _ hl => exact h.popped hl _

/-- R43, R41: one step keeps the invariant, for any parameters. -/
theorem stepWith_keeps_inv (h : s.Inv cfg) (hs : stepWith cfg s = .next t) : t.Inv cfg := by
  rcases answerEvent_cases hs with rfl | ⟨rest, rfl⟩ | ⟨w, rest, hw⟩
  · exact h
  · exact .wipe cfg _
  · exact (execWith_effect hw).keeps_inv (h.withPending rest)

/-- Settles O11: every effect of a transaction keeps the invariant (`Effect.keeps_inv`), and the reset state has it. -/
theorem everyStepKeepsTheInvariant : Obligations.EveryStepKeepsTheInvariant :=
  ⟨fun s _ h hs => stepWith_keeps_inv h (step_eq_stepWith s ▸ hs), fun _ _ _ h hs => stepWith_keeps_inv h hs⟩

/-- Settles O6, from the equation of a step with a transaction first in the queue. -/
theorem stepRunsTheDecodedTransaction : Obligations.StepRunsTheDecodedTransaction := by
  refine ⟨fun s w rest hp => answerEvent_of_bus exec hp, fun s i rest hw hp => ?_, fun s n w => ?_⟩
  · have hstep : step s = exec (decode (encode i)) (s.withPending rest) := answerEvent_of_bus exec hp
    rwa [decode_encode hw] at hstep
  · exact answerEvent_of_bus exec rfl

/-- Settles O7. -/
theorem stepWithoutTransaction : Obligations.StepWithoutTransaction :=
  ⟨fun _ hp => answerEvent_of_nil exec hp, fun _ _ hp => answerEvent_of_reset exec hp⟩

/-- Settles O10: the base case of the invariant. -/
theorem invariantHoldsAfterReset : Obligations.InvariantHoldsAfterReset := State.Inv.reset

/-! ### What may change the state's elements -/

/-- Settles O13, by cases on everything a transaction can do. -/
theorem noOtherPhaseTransition : Obligations.NoOtherPhaseTransition := by
  intro i s t hw h
  cases exec_effect h with
  | constructed _ hi _ hp | encStarted hi _ hp | decStarted hi _ hp | encEnded hi _ hp | encPadded hi _ hp
  | decEnded hi _ hp => simp [hi.eq_of_wellFormed rfl hw, hp]
  | aborted hi _ hp =>
    have hp' : s.phase = .ready ∨ s.phase = .enc ∨ s.phase = .dec := by cases hs : s.phase <;> simp [hs] at hp ⊢
    simp [hi.eq_of_wellFormed rfl hw, hp']
  | destroyed hi => simp [hi.eq_of_wellFormed rfl hw]
  | decrypted =>
    obtain ⟨ob, olen, zseen, hd⟩ := decBlock_frame coreConfig _
    exact .inl (by rw [hd])
  | _ => exact .inl rfl

/-- Settles O23, by cases on everything a transaction can do. -/
theorem theInstanceIsImmutable : Obligations.TheInstanceIsImmutable := by
  intro i s t hw h hs hdestroy
  cases exec_effect h with
  | destroyed hi => exact absurd (hi.eq_of_wellFormed rfl hw) hdestroy
  | constructed _ _ _ hp => exact absurd hp hs
  | staged _ _ _ _ _ _ hp => exact absurd hp hs
  | decrypted =>
    obtain ⟨ob, olen, zseen, hd⟩ := decBlock_frame coreConfig _
    rw [hd]
    exact ⟨rfl, rfl, rfl, rfl, rfl⟩
  | _ => exact ⟨rfl, rfl, rfl, rfl, rfl⟩

/-- R31: the ten commands on the working State. -/
def workingStateCommands : List Instr :=
  [.cipher, .invcipher, .subbytes, .invsubbytes, .shiftrows, .invshiftrows, .mixcolumns, .invmixcolumns,
   .addroundkey, .xtime]

/-- R84: the ten opcodes are those of the ten commands. -/
theorem commandOf_workingState :
    ∀ op ∈ workingStateOpcodes, ∃ c ∈ workingStateCommands, commandOf op = some c := by decide

/-- R31, R84: a well-formed write of one of the ten opcodes is one of the ten commands. -/
theorem Performs.mem_workingState {op : Byte} (hi : Performs i op) (hop : op ∈ workingStateOpcodes)
    (hw : i.wellFormed = true) : i ∈ workingStateCommands := by
  obtain ⟨c, hc, hcmd⟩ := commandOf_workingState op hop
  exact hi.eq_of_wellFormed hcmd hw ▸ hc

/-- R52: the addresses of the working State. -/
theorem regAt_eq_s {a : Byte} {j : Fin 16} (h : regAt a = .s j) : a = BitVec.ofNat 8 (0x10 + j.val) := by
  revert a j; decide +kernel

/-- Settles O29, by cases on everything a transaction can do. -/
theorem onlyItsCommandsWriteTheWorkingState : Obligations.OnlyItsCommandsWriteTheWorkingState := by
  intro i s t hw h
  cases exec_effect h with
  | destroyed hi => exact .inr (.inl (hi.eq_of_wellFormed rfl hw))
  | transformed op b hi hop _ hp => exact .inr (.inr ⟨hp, .inr (hi.mem_workingState hop hw)⟩)
  | storedS j v hi _ hp =>
    obtain ⟨a, rfl, ha⟩ := hi
    exact .inr (.inr ⟨hp, .inl ⟨j, v, regAt_eq_s ha ▸ rfl⟩⟩)
  | decrypted =>
    obtain ⟨ob, olen, zseen, hd⟩ := decBlock_frame coreConfig _
    exact .inl (by rw [hd])
  | _ => exact .inl rfl

/-- R81: a well-formed write of `DIN` is a `PUSH`. -/
theorem Pushes.eq_of_wellFormed {v : Byte} (h : Pushes i v) (hw : i.wellFormed = true) : i = .push v := by
  rcases h with h | rfl
  · exact h
  · simp [Instr.wellFormed] at hw

/-- Settles O30, by cases on everything a transaction can do. -/
theorem onlyCallsWriteTheFeedbackRegister : Obligations.OnlyCallsWriteTheFeedbackRegister := by
  intro i s t hw h
  cases exec_effect h with
  | destroyed hi => exact .inr (.inl ⟨hi.eq_of_wellFormed rfl hw, rfl⟩)
  | encStarted hi _ hp => exact .inr (.inr (.inl ⟨.inl (hi.eq_of_wellFormed rfl hw), hp, rfl⟩))
  | decStarted hi _ hp => exact .inr (.inr (.inl ⟨.inr (hi.eq_of_wellFormed rfl hw), hp, rfl⟩))
  | encrypted v hi _ hp hc =>
    exact .inr (.inr (.inr (.inl ⟨⟨v, hi.eq_of_wellFormed hw⟩, .inl hp, hc, rfl⟩)))
  | decrypted v hi _ hp hc =>
    obtain ⟨ob, olen, zseen, hd⟩ := decBlock_frame coreConfig _
    exact .inr (.inr (.inr (.inl ⟨⟨v, hi.eq_of_wellFormed hw⟩, .inr hp, hc, by rw [hd]; rfl⟩)))
  | encPadded hi _ hp hc => exact .inr (.inr (.inr (.inr ⟨hi.eq_of_wellFormed rfl hw, hp, hc, rfl⟩)))
  | _ => exact .inl rfl

/-! ### Reads and the key -/

/-- R26, R52: no register of the read column shows `KEY`. -/
theorem readReg_key (r : Reg) (s : State) (k : Buf32) : readReg r { s with key := k } = readReg r s := by
  cases r <;> rfl

/-- R247: the error action does not look at `KEY`. -/
theorem State.raise_key (s : State) (e : Error) (info : Byte) (k : Buf32) :
    State.raise { s with key := k } e info = { s.raise e info with key := k } := by
  by_cases he : s.err = 0x00#8
  · rw [State.raise_of_clear he, State.raise_of_clear (s := { s with key := k }) he]
  · rw [State.raise_of_set he, State.raise_of_set (s := { s with key := k }) he]

/-- R53: a plain read does not look at `KEY`. -/
theorem readPlain_key (r : Reg) (a : Byte) (s : State) (k : Buf32) :
    ∃ t, readPlain r a s = .next t ∧ readPlain r a { s with key := k } = .next { t with key := k } := by
  cases hr : readReg r s with
  | some v => exact ⟨s.answer v, by simp [readPlain, hr], by simp [readPlain, readReg_key, hr, State.answer]⟩
  | none =>
    exact ⟨(s.raise .access a).answer 0x00#8, by simp [readPlain, hr],
      by simp [readPlain, readReg_key, hr, State.raise_key, State.answer]⟩

/-- R188: a `POP` does not look at `KEY`. -/
theorem popPort_key (s : State) (k : Buf32) :
    ∃ t, popPort s = .next t ∧ popPort { s with key := k } = .next { t with key := k } := by
  by_cases he : s.err = 0x00#8
  · by_cases hl : s.ord < s.olen
    · exact ⟨_, by simp only [popPort, he, hl]; rfl, by simp [popPort, he, hl, State.answer]⟩
    · exact ⟨(s.raise .underrun 0x00#8).answer 0x00#8, by simp [popPort, he, hl],
        by simp [popPort, he, hl, State.raise, State.answer]⟩
  · exact ⟨s.answer 0x00#8, by simp [popPort, he], by simp [popPort, he, State.answer]⟩

/-- R53: a read of an address other than `DOUT` is a plain read of its register. -/
theorem execRd_of_ne_dout {a : Byte} (ha : a ≠ 0x0A#8) (s : State) : execRd a s = readPlain (regAt a) a s := by
  have hd : regAt a ≠ .dout := fun h => ha (regAt_eq_dout.mp h)
  unfold execRd
  split <;> simp_all

/-- Settles O27: a read is a `POP` or a plain read, and neither looks at `KEY`. -/
theorem noReadRevealsTheKey : Obligations.NoReadRevealsTheKey := by
  intro i s k hr
  cases i with
  | pop => exact popPort_key s k
  | rd a =>
    by_cases ha : a = 0x0A#8
    · subst ha; exact popPort_key s k
    · simpa [execRd_of_ne_dout ha] using readPlain_key (regAt a) a s k
  | _ => exact absurd hr (by simp [Instr.isWrite])

/-! ### The reset values and the views -/

/-- Settles O9: the reset state, field by field, and `DESTROY`, which wipes. -/
theorem resetLeavesEverythingZero : Obligations.ResetLeavesEverythingZero := by
  refine ⟨rfl, rfl, rfl, rfl, rfl, fun j => ?_, fun j => ?_, rfl, fun i => ?_, rfl, rfl, rfl, rfl, rfl, ?_,
    fun s => rfl⟩
  · simp [Buf32.zero]
  · simp [Buf32.zero]
  · simp
  · decide

/-- R36: the fields of the `STATUS` view, whatever bits they hold. -/
theorem status_fields (s : State) :
    s.status.extractLsb' 0 2 = phaseCode s.phase ∧ s.status.getLsbD 2 = s.errf ∧ s.status.getLsbD 3 = s.zseen ∧
    s.status.getLsbD 4 = s.ovalid ∧ s.status.getLsbD 5 = s.ipart ∧
    s.status.getLsbD 6 = false ∧ s.status.getLsbD 7 = false := by
  have hall : ∀ (i o z e : Bool) (p : BitVec 2),
      let w : Byte := 0#2 ++ BitVec.ofBool i ++ BitVec.ofBool o ++ BitVec.ofBool z ++ BitVec.ofBool e ++ p
      w.extractLsb' 0 2 = p ∧ w.getLsbD 2 = e ∧ w.getLsbD 3 = z ∧ w.getLsbD 4 = o ∧ w.getLsbD 5 = i ∧
        w.getLsbD 6 = false ∧ w.getLsbD 7 = false := by decide
  exact hall s.ipart s.ovalid s.zseen s.errf (phaseCode s.phase)

/-- Settles O24, from the fields of `STATUS` by their names. -/
theorem statusShowsItsFields : Obligations.StatusShowsItsFields := by
  intro s
  obtain ⟨hphase, herrf, hzseen, hovalid, hipart, h6, h7⟩ := status_fields s
  refine ⟨?_, ?_, hzseen, ?_, ?_, h6, h7, rfl⟩
  · rw [hphase]; cases s.phase <;> rfl
  · exact herrf.trans (by simp [State.errf, beq_eq_decide])
  · exact hovalid.trans (by simp [State.ovalid, beq_eq_decide])
  · exact hipart.trans (by simp [State.ipart, beq_eq_decide])

/-- R29, R30: the matrix of the first `n` bytes of a staging buffer, for `n` of 16 and more, in column-major order. -/
theorem firstBlock_take_cell (b : Buf32) {n : Nat} (hn : 16 ≤ n) (r c : Fin 4) :
    (firstBlock (b.toList.take n)).cell r c = b[r.val + 4 * c.val]'(by omega) := by
  have hlt : r.val + 4 * c.val < n := by omega
  have hb : r.val + 4 * c.val < 32 := by omega
  simp [firstBlock, Block.cell, hlt, hb]

/-- R8, R25: a legal length is 16 bytes or more. -/
theorem sixteen_le_of_legal {n : Byte} (h : n = 16#8 ∨ n = 24#8 ∨ n = 32#8) : 16 ≤ n.toNat := by
  rcases h with rfl | rfl | rfl <;> decide

/-- Settles O28. -/
theorem keyAndIvMatricesAreTheFirstSixteenBytes : Obligations.KeyAndIvMatricesAreTheFirstSixteenBytes :=
  fun s => ⟨fun h r c => firstBlock_take_cell s.key (sixteen_le_of_legal h) r c,
    fun h r c => firstBlock_take_cell s.iv (sixteen_le_of_legal h) r c⟩

end Sys2Proof.Machine

/-! PROOFS. Family 20_memory: every read and every write of the address map (R52 to R54, R216, R217). -/

namespace Sys2Proof.Machine

variable {cfg : Config} {s t : State} {a v : Byte}

/-! ### Addresses of the map -/

/-- R52: the addresses of the key. -/
theorem exists_regAt_eq_key : (∃ j, regAt a = .key j) ↔ 0x40 ≤ a.toNat ∧ a.toNat ≤ 0x5F := by
  revert a; decide +kernel

/-- R52: the addresses of the IV. -/
theorem exists_regAt_eq_iv : (∃ j, regAt a = .iv j) ↔ 0x60 ≤ a.toNat ∧ a.toNat ≤ 0x7F := by
  revert a; decide +kernel

/-- R52: the addresses of the working State. -/
theorem exists_regAt_eq_s : (∃ i, regAt a = .s i) ↔ 0x10 ≤ a.toNat ∧ a.toNat ≤ 0x1F := by
  revert a; decide +kernel

/-- R52: the address of `KLEN`. -/
theorem regAt_eq_klen : regAt a = .klen ↔ a = 0x04#8 := by revert a; decide +kernel

/-- R52: the address of `IVLEN`. -/
theorem regAt_eq_ivlen : regAt a = .ivlen ↔ a = 0x05#8 := by revert a; decide +kernel

/-! ### Reads -/

/-- R53: a readable register answers its value, and nothing else changes. -/
theorem execRd_of_readReg (h : readReg (regAt a) s = some v) : execRd a s = .next { s with rdata := some v } := by
  rcases execRd_cases a s with ⟨rfl, -⟩ | ⟨-, w, hw, hr⟩ | ⟨-, hn, -⟩
  · exact absurd h nofun
  · obtain rfl : w = v := Option.some.inj (hw.symm.trans h)
    exact hr
  · exact absurd (hn.symm.trans h) nofun

/-- R53: a read that the map does not allow answers `0x00`, and raises `E_ACCESS` if no error is pending. -/
theorem execRd_of_readReg_none (ha : a ≠ 0x0A#8) (h : readReg (regAt a) s = none) :
    execRd a s = .next (if s.err = 0x00#8 then { s with err := 0x12#8, errinfo := a, rdata := some 0x00#8 }
      else { s with rdata := some 0x00#8 }) := by
  rw [execRd_of_ne_dout ha, readPlain, h]
  by_cases he : s.err = 0x00#8
  · simp [he, State.raise_of_clear he, State.answer, errorCode]
  · simp [he, State.raise_of_set he, State.answer]

/-- R52: the addresses without an entry in the read column. -/
theorem readReg_regAt_eq_none (s : State)
    (h : a.toNat = 0x00 ∨ a.toNat = 0x09 ∨ (0x0B ≤ a.toNat ∧ a.toNat ≤ 0x0F) ∨
      (0x30 ≤ a.toNat ∧ a.toNat ≤ 0x5F) ∨ 0x80 ≤ a.toNat) : readReg (regAt a) s = none := by
  have hreg : regAt a = .cmd ∨ regAt a = .din ∨ regAt a = .reserved ∨ ∃ j, regAt a = .key j := by
    rw [regAt_eq_cmd, regAt_eq_din, regAt_eq_reserved, exists_regAt_eq_key]
    bv_omega
  rcases hreg with hr | hr | hr | ⟨j, hr⟩ <;> rw [hr] <;> rfl

/-- Settles O25: the read column, register by register (`execRd_of_readReg`), and the addresses it leaves out
(`readReg_regAt_eq_none`). -/
theorem readsFollowTheAddressMap : Obligations.ReadsFollowTheAddressMap := by
  unfold Obligations.ReadsFollowTheAddressMap
  simp only [exec_rd]
  refine fun s => ⟨rfl, execRd_of_readReg rfl, execRd_of_readReg rfl, execRd_of_readReg rfl, execRd_of_readReg rfl,
    execRd_of_readReg rfl, execRd_of_readReg rfl, execRd_of_readReg rfl, execRd_of_readReg rfl,
    fun i => execRd_of_readReg ?_, fun i => execRd_of_readReg ?_, fun j => execRd_of_readReg ?_, fun a ha => ?_⟩
  · rw [regAt_s]; rfl
  · rw [regAt_f]; rfl
  · rw [regAt_iv]; rfl
  · have hdout : a ≠ 0x0A#8 := by bv_omega
    exact execRd_of_readReg_none hdout (readReg_regAt_eq_none s ha)

/-! ### Writes -/

/-- R247: the error action inside a write with no error pending. -/
theorem State.noAnswer_raise (he : s.err = 0x00#8) (e : Error) (info : Byte) :
    s.noAnswer.raise e info = { s with err := errorCode e, errinfo := info, rdata := none } :=
  State.raise_of_clear (s := s.noAnswer) he e info

/-- R83, R84: every command but `CLRERR` and `DESTROY` has the frame of a command, with its opcode and its legal
phases. -/
theorem execWith_eq_command {op : Byte} {c : Instr} (hc : commandOf op = some c) (hclrerr : c ≠ .clrerr)
    (hdestroy : c ≠ .destroy) (cfg : Config) :
    ∃ body, ∀ s, execWith cfg c s = command op (legalPhases c) body s := by
  obtain ⟨hpush, hpop, hwr, hrd⟩ := commandOf_ne_access hc
  obtain rfl := commandOf_opcode hc
  unfold execWith
  cases c with
  | push d => exact absurd rfl (hpush d)
  | pop => exact absurd rfl hpop
  | wr a d => exact absurd rfl (hwr a d)
  | rd a => exact absurd rfl (hrd a)
  | clrerr => exact absurd rfl hclrerr
  | destroy => exact absurd rfl hdestroy
  | _ => exact ⟨_, fun _ => rfl⟩

/-- R83, R249: with an error pending a write to `CMD` is dropped, but for `CLRERR` and `DESTROY`. -/
theorem writeCmd_of_set {op : Byte} (he : s.err ≠ 0x00#8) (hop : ¬ (op = 0x03#8 ∨ op = 0x02#8)) :
    writeCmd cfg op s = .next s.noAnswer := by
  by_cases hm : op ∈ commandOpcodes
  · obtain ⟨c, hc⟩ : ∃ c, commandOf op = some c := Option.isSome_iff_exists.mp (by simpa [commandOf_isSome] using hm)
    have hclrerr : c ≠ .clrerr := by rintro rfl; exact hop (.inl (commandOf_opcode hc))
    have hdestroy : c ≠ .destroy := by rintro rfl; exact hop (.inr (commandOf_opcode hc))
    obtain ⟨body, hbody⟩ := execWith_eq_command hc hclrerr hdestroy cfg
    rw [writeCmd_of_command hc, hbody]
    exact command_of_set he
  · rw [writeCmd_illegal hm]
    exact guardedWrite_of_set he

/-- R54, R249: with an error pending a write of any address is dropped, but for `CLRERR` and `DESTROY`. -/
theorem execWrWith_of_set (he : s.err ≠ 0x00#8) (h : ¬ (a = 0x00#8 ∧ (v = 0x03#8 ∨ v = 0x02#8))) :
    execWrWith cfg a v s = .next s.noAnswer := by
  rcases execWrWith_cases cfg a v s with ⟨ha, hw⟩ | ⟨-, hw⟩ | ⟨-, -, hw⟩ <;> rw [hw]
  · exact writeCmd_of_set he fun hv => h ⟨ha, hv⟩
  · exact guardedWrite_of_set he
  · exact guardedWrite_of_set he

/-- R86: a write of no opcode to `CMD` raises `E_ILLCMD`. -/
theorem writeCmd_illegal_of_clear {op : Byte} (hop : op ∉ commandOpcodes) (he : s.err = 0x00#8) :
    writeCmd cfg op s = .next { s with err := 0x10#8, errinfo := op, rdata := none } := by
  rw [writeCmd_illegal hop, illegalCommand, guardedWrite_of_clear he, State.noAnswer_raise he]
  rfl

/-- R54, R217: a write that the map allows stores the byte. -/
theorem execWrWith_of_writeReg (he : s.err = 0x00#8) (h : writeReg (regAt a) v s.noAnswer = some t) :
    execWrWith cfg a v s = .next t := by
  rcases execWrWith_cases cfg a v s with ⟨rfl, -⟩ | ⟨rfl, -⟩ | ⟨-, -, hw⟩
  · exact absurd h nofun
  · exact absurd h nofun
  · rw [hw, writePlain, guardedWrite_of_clear he, h]
    rfl

/-- R54: a plain write that the map does not allow raises `E_ACCESS` and stores nothing. -/
theorem execWrWith_of_writeReg_none (h0 : a ≠ 0x00#8) (h9 : a ≠ 0x09#8) (he : s.err = 0x00#8)
    (h : writeReg (regAt a) v s.noAnswer = none) :
    execWrWith cfg a v s = .next { s with err := 0x12#8, errinfo := a, rdata := none } := by
  rcases execWrWith_cases cfg a v s with ⟨ha, -⟩ | ⟨ha, -⟩ | ⟨-, -, hw⟩
  · exact absurd ha h0
  · exact absurd ha h9
  · rw [hw, writePlain, guardedWrite_of_clear he, h, Option.getD_none, State.noAnswer_raise he]
    rfl

/-- R54: outside a call a write of `DIN` is a refused access. -/
theorem pushPort_of_idle (he : s.err = 0x00#8) (hp : s.phase = .unconf ∨ s.phase = .ready) :
    pushPort cfg v s = .next { s with err := 0x12#8, errinfo := 0x09#8, rdata := none } := by
  rw [pushPort, guardedWrite_of_clear he]
  rcases hp with hp | hp <;> simp only [State.noAnswer_phase, hp, State.noAnswer_raise he, errorCode]

/-- R52: the addresses that a plain write can store at, and the phases it needs. -/
theorem writeReg_regAt_cases (h : writeReg (regAt a) v s = some t) :
    (s.phase = .unconf ∧ (a.toNat = 0x04 ∨ a.toNat = 0x05 ∨ (0x40 ≤ a.toNat ∧ a.toNat ≤ 0x7F))) ∨
    ((s.phase = .unconf ∨ s.phase = .ready) ∧ 0x10 ≤ a.toNat ∧ a.toNat ≤ 0x1F) := by
  rcases writeReg_cases h with ⟨hr, hp, -⟩ | ⟨hr, hp, -⟩ | ⟨i, hr, hp, -⟩ | ⟨j, hr, hp, -⟩ | ⟨j, hr, hp, -⟩
  · obtain rfl := regAt_eq_klen.mp hr
    exact .inl ⟨hp, .inl rfl⟩
  · obtain rfl := regAt_eq_ivlen.mp hr
    exact .inl ⟨hp, .inr (.inl rfl)⟩
  · exact .inr ⟨hp, exists_regAt_eq_s.mp ⟨i, hr⟩⟩
  · have hrange := exists_regAt_eq_key.mp ⟨j, hr⟩
    exact .inl ⟨hp, .inr (.inr (by omega))⟩
  · have hrange := exists_regAt_eq_iv.mp ⟨j, hr⟩
    exact .inl ⟨hp, .inr (.inr (by omega))⟩

/-- Settles O26, clause by clause: the command port, the fail-stop, `E_ILLCMD`, `DIN`, the writes that store
(`execWrWith_of_writeReg`) and the refused ones, which store nothing (`writeReg_regAt_cases`). -/
theorem writesFollowTheAddressMap : Obligations.WritesFollowTheAddressMap := by
  unfold Obligations.WritesFollowTheAddressMap
  simp only [exec_wr, execWr]
  refine ⟨fun s op i hc => ?_, fun s a v he h => execWrWith_of_set he h, fun s op hop he => ?_, fun s v => rfl,
    fun s v he hp => ⟨?_, ?_, fun j => ?_, fun j => ?_⟩, fun s v i he hp => ?_, fun s a v he h => ?_⟩
  · exact (writeCmd_of_command hc coreConfig s).trans (exec_eq_execWith i s).symm
  · exact writeCmd_illegal_of_clear hop he
  · exact execWrWith_of_writeReg he (if_pos hp)
  · exact execWrWith_of_writeReg he (if_pos hp)
  · exact execWrWith_of_writeReg he (by rw [regAt_key]; exact if_pos hp)
  · exact execWrWith_of_writeReg he (by rw [regAt_iv]; exact if_pos hp)
  · exact execWrWith_of_writeReg he (by rw [regAt_s]; exact if_pos hp)
  · by_cases h9 : a = 0x09#8
    · subst h9
      exact pushPort_of_idle he (by simpa using h)
    · have h0 : a ≠ 0x00#8 := by rintro rfl; simp at h
      have hnone : writeReg (regAt a) v s.noAnswer = none := by
        refine Option.eq_none_iff_forall_ne_some.mpr fun t ht => ?_
        rcases writeReg_regAt_cases ht with ⟨hp, ha⟩ | ⟨hp | hp, ha⟩ <;>
          simp [show s.phase = _ from hp] at h <;> omega
      exact execWrWith_of_writeReg_none h0 h9 he hnone

end Sys2Proof.Machine

/-! PROOFS. Family 30_encoding: the decoder and the encoder, the reserved encodings, and the phases a command is legal
in (R80 to R86). -/

namespace Sys2Proof.Machine

variable {cfg : Config} {s : State} {op a : Byte} {c i : Instr} {w : Word17}

/-! ### The branches of the decoder -/

/-- R84: every listed opcode has a command. -/
theorem exists_command_of_mem (h : op ∈ commandOpcodes) : ∃ c, commandOf op = some c :=
  Option.isSome_iff_exists.mp (by simpa [commandOf_isSome] using h)

/-- R84: no command is an ill-formed term; only `WR` and `RD` can be. -/
theorem wellFormed_of_command (h : commandOf op = some c) : c.wellFormed = true := by
  obtain ⟨-, -, hwr, hrd⟩ := commandOf_ne_access h
  cases c with
  | wr a d => exact absurd rfl (hwr a d)
  | rd a => exact absurd rfl (hrd a)
  | _ => rfl

/-- R86: a write of no opcode to `CMD` is left to `WR`. -/
theorem decode_write_illegal (h : op ∉ commandOpcodes) :
    decode (transactionWord true 0x00#8 op) = .wr 0x00#8 op := by
  simp [decode, commandOf_eq_none h]

/-- R81, R85: a write of `DIN` is a `PUSH` of its data byte. -/
theorem decode_write_din (d : Byte) : decode (transactionWord true 0x09#8 d) = .push d := by
  simp [decode]

/-- R81, R85: a write of any other address is a `WR`. -/
theorem decode_write_plain (h0 : a ≠ 0x00#8) (h9 : a ≠ 0x09#8) (d : Byte) :
    decode (transactionWord true a d) = .wr a d := by
  simp [decode, h0, h9]

/-- R81, R85: a read of `DOUT` is a `POP`. -/
theorem decode_read_dout (x : Byte) : decode (transactionWord false 0x0A#8 x) = .pop := by
  simp [decode]

/-- R81, R85: a read of any other address is an `RD`. -/
theorem decode_read_plain (h : a ≠ 0x0A#8) (x : Byte) : decode (transactionWord false a x) = .rd a := by
  simp [decode, h]

/-- R82: the data byte of a read is ignored. -/
theorem decode_read (a x y : Byte) : decode (transactionWord false a x) = decode (transactionWord false a y) := by
  simp [decode]

/-! ### The round trips -/

/-- Settles O1: the word of each kind of term is decoded by the branch of that kind (`decode_encode`). -/
theorem decodeOfEncodeIsTheInstruction : Obligations.DecodeOfEncodeIsTheInstruction :=
  fun _ hw => decode_encode hw

/-- R81, R82: a write decodes to a well-formed term whose word it is. -/
theorem encode_decode_write (a d : Byte) : (decode (transactionWord true a d)).wellFormed = true ∧
    encode (decode (transactionWord true a d)) = transactionWord true a d := by
  by_cases h0 : a = 0x00#8
  · subst h0
    by_cases hd : d ∈ commandOpcodes
    · obtain ⟨c, hc⟩ := exists_command_of_mem hd
      rw [decode_of_command hc]
      exact ⟨wellFormed_of_command hc, (commandOf_eq_some hc).2⟩
    · rw [decode_write_illegal hd]
      exact ⟨by simp [Instr.wellFormed, hd], rfl⟩
  · by_cases h9 : a = 0x09#8
    · subst h9
      rw [decode_write_din]
      exact ⟨rfl, rfl⟩
    · rw [decode_write_plain h0 h9]
      exact ⟨by simp [Instr.wellFormed, h0, h9], rfl⟩

/-- R81, R82: a read decodes to a well-formed term whose word has the data byte zero. -/
theorem encode_decode_read (a x : Byte) : (decode (transactionWord false a x)).wellFormed = true ∧
    encode (decode (transactionWord false a x)) = transactionWord false a 0x00#8 := by
  by_cases hA : a = 0x0A#8
  · subst hA
    rw [decode_read_dout]
    exact ⟨rfl, rfl⟩
  · rw [decode_read_plain hA]
    exact ⟨by simp [Instr.wellFormed, hA], rfl⟩

/-- Settles O2: a word is the transaction of its three fields, a write (`encode_decode_write`) or a read
(`encode_decode_read`). -/
theorem encodeOfDecodeIsTheWord : Obligations.EncodeOfDecodeIsTheWord := by
  intro w
  have hfields := transactionWord_fields w
  cases hwe : w.we with
  | true =>
    rw [hwe] at hfields
    simpa [hfields] using encode_decode_write w.addr w.wdata
  | false =>
    rw [hwe] at hfields
    simpa [hfields] using encode_decode_read w.addr w.wdata

/-! ### Reserved encodings -/

/-- R86: a write of no opcode to `CMD` raises `E_ILLCMD`. -/
theorem exec_illegal_opcode (hop : op ∉ commandOpcodes) (he : s.err = 0x00#8) :
    exec (decode (transactionWord true 0x00#8 op)) s =
      .next { s with err := 0x10#8, errinfo := op, rdata := none } := by
  rw [decode_write_illegal hop]
  exact writeCmd_illegal_of_clear hop he

/-- R56: a read of a reserved address answers `0x00` and raises `E_ACCESS`. -/
theorem exec_read_reserved (hr : regAt a = .reserved) (he : s.err = 0x00#8) (x : Byte) :
    exec (decode (transactionWord false a x)) s =
      .next { s with err := 0x12#8, errinfo := a, rdata := some 0x00#8 } := by
  have hdout : a ≠ 0x0A#8 := by rintro rfl; exact absurd hr (by decide)
  have hnone : readReg (regAt a) s = none := by rw [hr]; rfl
  rw [decode_read_plain hdout, exec_rd, execRd_of_readReg_none hdout hnone, if_pos he]

/-- R56: a write of a reserved address raises `E_ACCESS`. -/
theorem exec_write_reserved (hr : regAt a = .reserved) (he : s.err = 0x00#8) (d : Byte) :
    exec (decode (transactionWord true a d)) s =
      .next { s with err := 0x12#8, errinfo := a, rdata := none } := by
  have hcmd : a ≠ 0x00#8 := by rintro rfl; exact absurd hr (by decide)
  have hdin : a ≠ 0x09#8 := by rintro rfl; exact absurd hr (by decide)
  have hnone : writeReg (regAt a) d s.noAnswer = none := by rw [hr]; rfl
  rw [decode_write_plain hcmd hdin]
  exact execWrWith_of_writeReg_none hcmd hdin he hnone

/-! ### Every transaction has a next state -/

/-- R54: a guarded write answers a next state, whether or not it is dropped. -/
theorem guardedWrite_answers (body : State → State) (s : State) : ∃ t, guardedWrite body s = .next t := by
  by_cases he : s.err = 0x00#8
  · exact ⟨_, guardedWrite_of_clear he⟩
  · exact ⟨_, guardedWrite_of_set he⟩

/-- R188: a read of `DOUT` answers a next state. -/
theorem popPort_answers (s : State) : ∃ t, popPort s = .next t := by
  unfold popPort
  split_ifs <;> exact ⟨_, rfl⟩

/-- R83: a command answers a next state. -/
theorem execWith_command_answers (hc : commandOf op = some c) (cfg : Config) (s : State) :
    ∃ t, execWith cfg c s = .next t := by
  by_cases hclrerr : c = .clrerr
  · exact hclrerr ▸ ⟨_, rfl⟩
  · by_cases hdestroy : c = .destroy
    · exact hdestroy ▸ ⟨_, rfl⟩
    · obtain ⟨body, hbody⟩ := execWith_eq_command hc hclrerr hdestroy cfg
      rw [hbody]
      exact guardedWrite_answers _ s

/-- R83: a write to `CMD` answers a next state, an opcode or not. -/
theorem writeCmd_answers (cfg : Config) (op : Byte) (s : State) : ∃ t, writeCmd cfg op s = .next t := by
  by_cases hm : op ∈ commandOpcodes
  · obtain ⟨c, hc⟩ := exists_command_of_mem hm
    rw [writeCmd_of_command hc]
    exact execWith_command_answers hc cfg s
  · rw [writeCmd_illegal hm]
    exact guardedWrite_answers _ s

/-- R83: a command in its own term, whose opcode is the data byte of its word, answers a next state. -/
theorem execWith_answers_of_own_opcode (h : commandOf (encode i).wdata = some i) (cfg : Config) (s : State) :
    ∃ t, execWith cfg i s = .next t := execWith_command_answers h cfg s

/-- R86, R280: every instruction, in every state and for any parameters, has a next state. -/
theorem execWith_answers (cfg : Config) (i : Instr) (s : State) : ∃ t, execWith cfg i s = .next t := by
  cases i with
  | push d =>
    rw [execWith, execPushWith]
    exact guardedWrite_answers _ s
  | pop => exact popPort_answers s
  | wr a d =>
    rw [execWith]
    rcases execWrWith_cases cfg a d s with ⟨-, hw⟩ | ⟨-, hw⟩ | ⟨-, -, hw⟩ <;> rw [hw]
    · exact writeCmd_answers cfg d s
    · exact guardedWrite_answers _ s
    · exact guardedWrite_answers _ s
  | rd a =>
    rw [execWith]
    rcases execRd_cases a s with ⟨-, hr⟩ | ⟨-, v, -, hr⟩ | ⟨-, -, hr⟩ <;> rw [hr]
    · exact popPort_answers s
    · exact ⟨_, rfl⟩
    · exact ⟨_, rfl⟩
  | _ => exact execWith_answers_of_own_opcode rfl cfg s

/-- R86: the four ranges of illegal opcodes. -/
theorem not_mem_commandOpcodes_iff (op : Byte) : op ∉ commandOpcodes ↔
    (0x05 ≤ op.toNat ∧ op.toNat ≤ 0x0F) ∨ (0x14 ≤ op.toNat ∧ op.toNat ≤ 0x1F) ∨
    (0x22 ≤ op.toNat ∧ op.toNat ≤ 0x2F) ∨ (0x38 ≤ op.toNat ∧ op.toNat ≤ 0xFF) := by
  revert op; decide +kernel

/-- Settles O5: the 256 bytes are run through for the ranges and their number; the two refusals and the totality are
those of every state. -/
theorem reservedEncodingsAreRefused : Obligations.ReservedEncodingsAreRefused := by
  refine ⟨not_mem_commandOpcodes_iff, by decide +kernel, fun op s hop he => exec_illegal_opcode hop he,
    fun a s he ha => ?_, fun w s => ?_⟩
  · have hr : regAt a = .reserved := regAt_eq_reserved.mpr (by omega)
    exact ⟨exec_read_reserved hr he, exec_write_reserved hr he⟩
  · rw [exec_eq_execWith]
    exact execWith_answers coreConfig (decode w) s

/-! ### The phases of a command -/

/-- R84: `CLRERR` and `DESTROY` are legal in every phase. -/
theorem mem_legalPhases_of_return (p : Phase) (h : c = .clrerr ∨ c = .destroy) : p ∈ legalPhases c := by
  rcases h with rfl | rfl <;> cases p <;> decide

/-- R83: a command outside its legal phases raises `E_PHASE`. -/
theorem execWith_of_illegal_phase (hc : commandOf op = some c) (he : s.err = 0x00#8)
    (hp : s.phase ∉ legalPhases c) :
    execWith cfg c s = .next { s with err := 0x11#8, errinfo := op, rdata := none } := by
  have hclrerr : c ≠ .clrerr := fun h => hp (mem_legalPhases_of_return s.phase (.inl h))
  have hdestroy : c ≠ .destroy := fun h => hp (mem_legalPhases_of_return s.phase (.inr h))
  obtain ⟨body, hbody⟩ := execWith_eq_command hc hclrerr hdestroy cfg
  rw [hbody]
  exact command_of_illegal he hp

/-- R241: the code of `E_PHASE` is that of no other error. -/
theorem errorCode_eq_phase {e : Error} : errorCode e = 0x11#8 ↔ e = .phase := by cases e <;> decide

/-- R241: an error other than `E_PHASE`, taken with none pending, leaves another code than that of `E_PHASE`. -/
theorem State.raise_err_ne_phase (he : s.err = 0x00#8) {e : Error} (h : e ≠ .phase) (info : Byte) :
    (s.raise e info).err ≠ 0x11#8 := by
  rw [State.raise_of_clear he]
  exact mt errorCode_eq_phase.mp h

/-- R212: the checks of `INIT` are those of the two lengths. -/
theorem initBody_err_ne_phase (he : s.err = 0x00#8) : (initBody cfg s).err ≠ 0x11#8 := by
  unfold initBody
  split
  · exact State.raise_err_ne_phase he (by decide) _
  · split_ifs
    · simp [he]
    · exact State.raise_err_ne_phase he (by decide) _

/-- R172, R182: the only check of a start command is for unread output. -/
theorem startCall_err_ne_phase (he : s.err = 0x00#8) (p : Phase) : (startCall cfg p s).err ≠ 0x11#8 := by
  unfold startCall
  split_ifs
  · simp [he]
  · exact State.raise_err_ne_phase he (by decide) _

/-- R179: the only check of `ENC_FINAL` is for unread output. -/
theorem encFinalBody_err_ne_phase (he : s.err = 0x00#8) : (encFinalBody cfg s).err ≠ 0x11#8 := by
  unfold encFinalBody
  split_ifs
  · simp [he]
  · exact State.raise_err_ne_phase he (by decide) _
  · simp [he, encBlock]

/-- R186: the only check of `DEC_FINAL` is for a part-filled block. -/
theorem decFinalBody_err_ne_phase (he : s.err = 0x00#8) : (decFinalBody s).err ≠ 0x11#8 := by
  unfold decFinalBody
  split_ifs
  · simp [he]
  · exact State.raise_err_ne_phase he (by decide) _

/-- R83: a command in a legal phase raises `E_PHASE` only if its body does. -/
theorem command_err_ne_phase {legal : List Phase} {body : State → State} (he : s.err = 0x00#8) (hp : s.phase ∈ legal)
    (hb : (body s.noAnswer).err ≠ 0x11#8) : ∃ t, command op legal body s = .next t ∧ t.err ≠ 0x11#8 :=
  ⟨_, command_of_legal he hp, hb⟩

/-- R83: a command in a legal phase does its body, and no body raises `E_PHASE`; most leave `ERR` alone. -/
theorem execWith_of_legal_phase (hc : commandOf op = some c) (he : s.err = 0x00#8) (hp : s.phase ∈ legalPhases c) :
    ∃ t, execWith cfg c s = .next t ∧ t.err ≠ 0x11#8 := by
  obtain ⟨hpush, hpop, hwr, hrd⟩ := commandOf_ne_access hc
  have hclear : s.noAnswer.err = 0x00#8 := he
  have hne : s.noAnswer.err ≠ 0x11#8 := by simp [he]
  unfold execWith
  cases c with
  | push d => exact absurd rfl (hpush d)
  | pop => exact absurd rfl hpop
  | wr a d => exact absurd rfl (hwr a d)
  | rd a => exact absurd rfl (hrd a)
  | destroy => exact ⟨s.wipe, rfl, by simp⟩
  | clrerr => exact ⟨s.noAnswer.clearError, rfl, by simp⟩
  | init => exact command_err_ne_phase he hp (initBody_err_ne_phase hclear)
  | encStart => exact command_err_ne_phase he hp (startCall_err_ne_phase hclear .enc)
  | decStart => exact command_err_ne_phase he hp (startCall_err_ne_phase hclear .dec)
  | encFinal => exact command_err_ne_phase he hp (encFinalBody_err_ne_phase hclear)
  | decFinal => exact command_err_ne_phase he hp (decFinalBody_err_ne_phase hclear)
  | _ => exact command_err_ne_phase he hp hne

/-- Settles O16: outside the legal phases by the frame of a command, inside them by the bodies, whose errors are
others. -/
theorem commandsAreLegalInTheirPhasesOnly : Obligations.CommandsAreLegalInTheirPhasesOnly := by
  intro op i s hc he
  rw [exec_eq_execWith]
  exact ⟨execWith_of_illegal_phase hc he, execWith_of_legal_phase hc he⟩

/-! ### The opcode table -/

/-- R80, R84, R85: the word of a well-formed instruction, written as a number, decodes to it. -/
theorem decode_eq_of_encode (h : encode i = w) (hw : i.wellFormed = true) : decode w = i :=
  h ▸ decode_encode hw

/-- Settles O3: each word is the encoding of its row. -/
theorem opcodeTableWordsDecode : Obligations.OpcodeTableWordsDecode := by
  refine ⟨?_, ?_, ?_, ?_, ?_, ?_, ?_, ?_, ?_, ?_, ?_, ?_, ?_, ?_, ?_, ?_, ?_, ?_, ?_, ?_, ?_, ?_, ?_⟩ <;>
    exact decode_eq_of_encode rfl rfl

/-- Settles O4, from the branches of the decoder. -/
theorem readsIgnoreTheDataByte : Obligations.ReadsIgnoreTheDataByte := by
  refine ⟨fun op hop => ?_, decode_write_din, fun a d h0 h9 => decode_write_plain h0 h9 d, decode_read⟩
  obtain ⟨c, hc⟩ := exists_command_of_mem hop
  rw [decode_of_command hc, hc]

end Sys2Proof.Machine

/-! PROOFS. Family 40_field_and_tables: doubling as multiplication by {02} and its period, the command `XTIME`, and the
construction of the substitution tables (R101 to R107). -/

namespace Sys2Proof.Machine

variable {s : State}

/-! ### Doubling -/

/-- Shifting a byte by one place within eight bits, on natural numbers. -/
theorem toNat_shiftLeft_one (b : Byte) : (b <<< 1).toNat = (b.toNat <<< 1) &&& 0xFF := by
  rw [BitVec.toNat_shiftLeft, Nat.and_two_pow_sub_one_eq_mod _ 8]

/-- Settles O31: by the two cases of bit 7. -/
theorem xtimeShiftsAndReduces : Obligations.XtimeShiftsAndReduces := by
  refine ⟨fun b => ?_, by decide, by decide⟩
  unfold xtime
  split
  · rw [BitVec.toNat_xor, toNat_shiftLeft_one]; rfl
  · exact toNat_shiftLeft_one b

/-- R100: the polynomial `x` shifts its factor by one place. -/
theorem carrylessMul_two (a : Byte) : carrylessMul a 0x02#8 = a.toNat <<< 1 := by
  simp [carrylessMul, List.range_succ]

/-- R102 (a): of the product with `x` at most bit 8 is reduced, and that is bit 7 of the factor. -/
theorem gmul_two (b : Byte) : gmul b 0x02#8 = xtime b := by
  have hhigh : ∀ j, 8 ≤ j → b.toNat.testBit j = false := fun j hj => BitVec.getLsbD_of_ge b j hj
  have hfold : gmul b 0x02#8 =
      BitVec.ofNat 8 (if b.getLsbD 7 then (b.toNat <<< 1) ^^^ 0x11B else b.toNat <<< 1) := by
    simp [gmul, carrylessMul_two, List.range_succ, hhigh, BitVec.getLsbD]
  rw [hfold, xtime]
  split
  · exact BitVec.eq_of_toNat_eq (by simp)
  · exact BitVec.eq_of_toNat_eq (by simp)

/-- R102 (d): eight doublings multiply by `x^8`, which is {1B}. -/
theorem xtime_iterate_eight (b : Byte) : xtime^[8] b = gmul b 0x1B#8 := by
  revert b; decide +kernel

/-- R102 (e): 51 doublings give the byte back. -/
theorem xtime_iterate_fiftyOne (b : Byte) : xtime^[51] b = b := by
  revert b; decide +kernel

/-- R102 (e): the powers of {02} below the 51st differ from {01}. -/
theorem xtime_iterate_one_ne_one : ∀ n < 51, 0 < n → xtime^[n] 0x01#8 ≠ 0x01#8 := by decide +kernel

/-- R102 (c): doubling is undone by fifty further doublings. -/
theorem xtime_bijective : Function.Bijective xtime :=
  ⟨Function.LeftInverse.injective (g := xtime^[50]) xtime_iterate_fiftyOne,
   Function.RightInverse.surjective (g := xtime^[50]) fun b =>
     (Function.iterate_succ_apply' xtime 50 b).symm.trans (xtime_iterate_fiftyOne b)⟩

/-- R102 (c): a byte that is its own double is zero. -/
theorem eq_zero_of_xtime_eq_self (b : Byte) : xtime b = b → b = 0x00#8 := by
  revert b; decide +kernel

/-- Settles O32, law by law; the exponents below 51 fail at the byte {01}. -/
theorem xtimeIsDoublingInTheField : Obligations.XtimeIsDoublingInTheField :=
  ⟨fun b => (gmul_two b).symm, xtime_xor, xtime_zero, xtime_bijective, eq_zero_of_xtime_eq_self,
   xtime_iterate_eight, xtime_iterate_fiftyOne, fun n hpos hlt => ⟨0x01#8, xtime_iterate_one_ne_one n hlt hpos⟩⟩

/-! ### The command XTIME -/

/-- R83, R120: a transform that is legal outside a call replaces the working State there and nothing else. -/
theorem command_transform_of_idle {op : Byte} (f : State → Block) (he : s.err = 0x00#8)
    (hp : s.phase = .unconf ∨ s.phase = .ready) :
    command op [.unconf, .ready] (fun s => s.setS (f s)) s =
      .next { s with sReg := f s.noAnswer, rdata := none } :=
  command_of_legal he (by simpa using hp)

/-- R83: a command that is legal outside a call only is refused inside one. -/
theorem command_idleOnly_of_call {op : Byte} (body : State → State) (he : s.err = 0x00#8)
    (hp : s.phase = .enc ∨ s.phase = .dec) :
    command op [.unconf, .ready] body s = .next { s with err := 0x11#8, errinfo := op, rdata := none } :=
  command_of_illegal he (by rcases hp with hp | hp <;> simp [hp])

/-- Settles O33: `XTIME` is a transform, legal outside a call only, whose every byte is the double of the old one. -/
theorem xtimeCommandDoublesEveryByte : Obligations.XtimeCommandDoublesEveryByte := by
  refine ⟨decode_encode (i := .xtime) rfl, fun s he => ⟨fun hp => ?_, command_idleOnly_of_call xtimeBody he⟩⟩
  exact ⟨_, Block.build_get _, command_transform_of_idle (fun s => Block.build fun i => xtime s.sReg[i]) he hp⟩

/-! ### The tables -/

/-- Settles O34: a function with an inverse on both sides is a bijection. -/
theorem tablesAreInverseBijections : Obligations.TablesAreInverseBijections :=
  ⟨invSbox_sbox, sbox_invSbox,
   Function.LeftInverse.injective invSbox_sbox, Function.RightInverse.surjective sbox_invSbox⟩

/-- The inverse of R107's affine map: it reads the `y` of the construction off a table entry. -/
def sboxAffineInv (z : Byte) : Byte := z.rotateLeft 1 ^^^ z.rotateLeft 3 ^^^ z.rotateLeft 6 ^^^ 0x05#8

/-- R107: the affine map undoes its inverse. -/
theorem sboxAffine_sboxAffineInv (z : Byte) : sboxAffine (sboxAffineInv z) = z := by
  revert z; decide +kernel

/-- R107: the entry of zero is the image of zero. -/
theorem sboxAffineInv_sbox_zero : sboxAffineInv (sbox 0x00#8) = 0x00#8 := by decide +kernel

/-- R107: every other entry is the image of the field inverse of its index. -/
theorem gmul_sboxAffineInv_sbox (x : Byte) : x ≠ 0x00#8 → gmul x (sboxAffineInv (sbox x)) = 0x01#8 := by
  revert x; decide +kernel

/-- R107: rotating right by `k` brings bit `(i + k) mod 8` to place `i`. -/
theorem sboxAffine_getLsbD (y : Byte) (i : Fin 8) : (sboxAffine y).getLsbD i.val =
    (y.getLsbD i.val ^^ y.getLsbD ((i.val + 4) % 8) ^^ y.getLsbD ((i.val + 5) % 8) ^^
      y.getLsbD ((i.val + 6) % 8) ^^ y.getLsbD ((i.val + 7) % 8) ^^ (0x63#8 : Byte).getLsbD i.val) := by
  fin_cases i <;> simp [sboxAffine]

/-- Settles O35: the `y` of an entry is its image under the inverse affine map. -/
theorem forwardTableFollowsItsConstruction : Obligations.ForwardTableFollowsItsConstruction := by
  intro x
  refine ⟨sboxAffineInv (sbox x), ?_, gmul_sboxAffineInv_sbox x, fun i => ?_⟩
  · rintro rfl; exact sboxAffineInv_sbox_zero
  · rw [← sboxAffine_getLsbD, sboxAffine_sboxAffineInv]
    rfl

end Sys2Proof.Machine

/-! PROOFS. Family 41_transforms: the column functions as polynomial products and their period, the laws of the
transforms (R121 to R135), the round key application (R138), and the seven commands. -/

namespace Sys2Proof.Machine

variable {s : State}

/-! ### Column mixing -/

/-- R129: `{03} = {02} ^ {01}`. -/
theorem gmul_three (b : Byte) : gmul b 0x03#8 = xtime b ^^^ b := by
  revert b; decide +kernel

/-- R132: `{09} = {08} ^ {01}`. -/
theorem gmul_nine (b : Byte) : gmul b 0x09#8 = xtime (xtime (xtime b)) ^^^ b := by
  revert b; decide +kernel

/-- R132: `{0b} = {08} ^ {02} ^ {01}`. -/
theorem gmul_eleven (b : Byte) : gmul b 0x0b#8 = xtime (xtime (xtime b)) ^^^ xtime b ^^^ b := by
  revert b; decide +kernel

/-- R132: `{0d} = {08} ^ {04} ^ {01}`. -/
theorem gmul_thirteen (b : Byte) : gmul b 0x0d#8 = xtime (xtime (xtime b)) ^^^ xtime (xtime b) ^^^ b := by
  revert b; decide +kernel

/-- R132: `{0e} = {08} ^ {04} ^ {02}`. -/
theorem gmul_fourteen (b : Byte) : gmul b 0x0e#8 = xtime (xtime (xtime b)) ^^^ xtime (xtime b) ^^^ xtime b := by
  revert b; decide +kernel

/-- R129: doubling is linear, so every byte of the result is a sum of products, in which `ci ^ t` cancels `ci`. -/
theorem mixColumn_eq_gmul (c0 c1 c2 c3 : Byte) : mixColumn ⟨c0, c1, c2, c3⟩ =
    ⟨gmul c0 2#8 ^^^ gmul c1 3#8 ^^^ c2 ^^^ c3, c0 ^^^ gmul c1 2#8 ^^^ gmul c2 3#8 ^^^ c3,
     c0 ^^^ c1 ^^^ gmul c2 2#8 ^^^ gmul c3 3#8, gmul c0 3#8 ^^^ c1 ^^^ c2 ^^^ gmul c3 2#8⟩ := by
  simp [mixColumn, gmul_two, gmul_three, xtime_xor, BitVec.xor_assoc, BitVec.xor_comm, xor_left_comm]

/-- R132: the same for the inverse, in which `u` and `v` bring in the higher products. -/
theorem invMixColumn_eq_gmul (c0 c1 c2 c3 : Byte) : invMixColumn ⟨c0, c1, c2, c3⟩ =
    ⟨gmul c0 0x0e#8 ^^^ gmul c1 0x0b#8 ^^^ gmul c2 0x0d#8 ^^^ gmul c3 0x09#8,
     gmul c0 0x09#8 ^^^ gmul c1 0x0e#8 ^^^ gmul c2 0x0b#8 ^^^ gmul c3 0x0d#8,
     gmul c0 0x0d#8 ^^^ gmul c1 0x09#8 ^^^ gmul c2 0x0e#8 ^^^ gmul c3 0x0b#8,
     gmul c0 0x0b#8 ^^^ gmul c1 0x0d#8 ^^^ gmul c2 0x09#8 ^^^ gmul c3 0x0e#8⟩ := by
  simp [invMixColumn, mixColumn, gmul_nine, gmul_eleven, gmul_thirteen, gmul_fourteen, xtime_xor, BitVec.xor_assoc,
    BitVec.xor_comm, xor_left_comm]

/-- R129: `MixColumn` is linear over XOR, because doubling is. -/
theorem mixColumn_xor_row (c0 c1 c2 c3 d0 d1 d2 d3 : Byte) (r : Fin 4) :
    (mixColumn ⟨c0 ^^^ d0, c1 ^^^ d1, c2 ^^^ d2, c3 ^^^ d3⟩).row r =
      (mixColumn ⟨c0, c1, c2, c3⟩).row r ^^^ (mixColumn ⟨d0, d1, d2, d3⟩).row r := by
  fin_cases r <;> simp only [Column.row, mixColumn, xtime_xor] <;> ac_rfl

/-- Settles O39: the functions as defined, their expansions, and the linearity. -/
theorem columnMixingIsThePolynomialProduct : Obligations.ColumnMixingIsThePolynomialProduct :=
  fun c0 c1 c2 c3 => ⟨rfl, mixColumn_eq_gmul c0 c1 c2 c3, rfl, invMixColumn_eq_gmul c0 c1 c2 c3,
    fun d0 d1 d2 d3 r => mixColumn_xor_row c0 c1 c2 c3 d0 d1 d2 d3 r⟩

/-- The square of R129's polynomial is `{04}x^2 ^ {05}`: mixing twice is the pre-mixing step of R132. -/
theorem mixColumn_mixColumn (c : Column) : mixColumn (mixColumn c) =
    ⟨c.c0 ^^^ xtime (xtime (c.c0 ^^^ c.c2)), c.c1 ^^^ xtime (xtime (c.c1 ^^^ c.c3)),
     c.c2 ^^^ xtime (xtime (c.c0 ^^^ c.c2)), c.c3 ^^^ xtime (xtime (c.c1 ^^^ c.c3))⟩ := by
  simp [mixColumn, xtime_xor, BitVec.xor_assoc, BitVec.xor_comm, xor_left_comm]

/-- R132: `InvMixColumn` mixes three times. -/
theorem invMixColumn_eq_mixColumn_thrice (c : Column) : invMixColumn c = mixColumn (mixColumn (mixColumn c)) :=
  congrArg mixColumn (mixColumn_mixColumn c).symm

/-- Mixing four times gives the column back: pre-mixing leaves `c0 ^ c2` and `c1 ^ c3` as they are, so the second one
cancels what the first one added. -/
theorem mixColumn_four_times (c : Column) : mixColumn (mixColumn (mixColumn (mixColumn c))) = c := by
  simp [mixColumn_mixColumn, xor_xor_cancel]

/-- R133 on one column. -/
theorem invMixColumn_mixColumn (c : Column) : invMixColumn (mixColumn c) = c :=
  (invMixColumn_eq_mixColumn_thrice _).trans (mixColumn_four_times c)

/-- R133 on one column, the other way round. -/
theorem mixColumn_invMixColumn (c : Column) : mixColumn (invMixColumn c) = c :=
  (congrArg mixColumn (invMixColumn_eq_mixColumn_thrice c)).trans (mixColumn_four_times c)

/-- R133: the transforms undo each other, because the column functions do. -/
theorem invMixColumns_mixColumns (m : Block) : invMixColumns (mixColumns m) = m := by
  simp only [invMixColumns, mixColumns_column, invMixColumn_mixColumn, Block.ofColumns_column]

/-- R133, the other way round. -/
theorem mixColumns_invMixColumns (m : Block) : mixColumns (invMixColumns m) = m := by
  simp only [mixColumns, invMixColumns_column, mixColumn_invMixColumn, Block.ofColumns_column]

/-- Settles O40: `MixColumn` has period four, and `InvMixColumn` is its third power. -/
theorem invMixColumnsUndoesMixColumns : Obligations.InvMixColumnsUndoesMixColumns :=
  ⟨fun m c => ⟨mixColumns_column m c, invMixColumns_column m c⟩,
   fun m => ⟨invMixColumns_mixColumns m, mixColumns_invMixColumns m⟩⟩

/-! ### Substitution and rotation -/

/-- R104: on the 256 bytes the contract's left inverse is an inverse on both sides. -/
theorem sbox_invSbox_of_lawful {cfg : Config} (h : cfg.Lawful) (y : Byte) : cfg.sbox (cfg.invSbox y) = y :=
  Function.LeftInverse.rightInverse_of_card_le h.invSbox_sbox le_rfl y

/-- R135: the contract of the tables, byte by byte. -/
theorem invSubBytes_subBytes {cfg : Config} (h : cfg.Lawful) (m : Block) : invSubBytes cfg (subBytes cfg m) = m :=
  Block.ext_cell fun r c => by simp [h.invSbox_sbox]

/-- R135, the other way round. -/
theorem subBytes_invSubBytes {cfg : Config} (h : cfg.Lawful) (m : Block) : subBytes cfg (invSubBytes cfg m) = m :=
  Block.ext_cell fun r c => by simp [sbox_invSbox_of_lawful h]

/-- R135: a row turned left by `r` places and right by as many. -/
theorem invShiftRows_shiftRows (m : Block) : invShiftRows (shiftRows m) = m :=
  Block.ext_cell fun r c => by simp

/-- R135, the other way round. -/
theorem shiftRows_invShiftRows (m : Block) : shiftRows (invShiftRows m) = m :=
  Block.ext_cell fun r c => by simp

/-- Settles O41: cell by cell, a substitution acts on the value and a rotation on the place. -/
theorem substitutionAndRotationInvertAndCommute : Obligations.SubstitutionAndRotationInvertAndCommute :=
  ⟨fun _ m h => ⟨invSubBytes_subBytes h m, subBytes_invSubBytes h m⟩,
   fun m => ⟨invShiftRows_shiftRows m, shiftRows_invShiftRows m⟩,
   fun _ _ => ⟨Block.ext_cell fun r c => by simp, Block.ext_cell fun r c => by simp⟩⟩

/-! ### The commands on the working State -/

/-- R83, R120: an instruction that runs the transform `f`, legal outside a call, applies it to the working State there
and is refused inside one. -/
theorem exec_transform {i : Instr} {op : Byte} (f : Block → Block)
    (hi : ∀ s, exec i s = command op [.unconf, .ready] (fun s => s.setS (f s.sReg)) s) (he : s.err = 0x00#8) :
    (s.phase = .unconf ∨ s.phase = .ready → exec i s = .next { s with sReg := f s.sReg, rdata := none }) ∧
    (s.phase = .enc ∨ s.phase = .dec → exec i s = .next { s with err := 0x11#8, errinfo := op, rdata := none }) :=
  ⟨fun hp => (hi s).trans (command_transform_of_idle (fun s => f s.sReg) he hp),
   fun hp => (hi s).trans (command_idleOnly_of_call _ he hp)⟩

/-- R122: no byte maps to itself. -/
theorem sbox_ne_self (b : Byte) : sbox b ≠ b := by
  revert b; decide +kernel

/-- Settles O36: both commands are transforms, legal outside a call only; the corner cases are entries of the tables. -/
theorem substitutionCommandsLookUpEveryByte : Obligations.SubstitutionCommandsLookUpEveryByte := by
  refine ⟨decode_encode (i := .subbytes) rfl, decode_encode (i := .invsubbytes) rfl, ⟨rfl, rfl, sbox_ne_self⟩,
    ⟨rfl, rfl⟩, fun s he => ?_⟩
  obtain ⟨hfwd, hfwdCall⟩ := exec_transform (i := .subbytes) (op := 0x30#8) (subBytes coreConfig) (fun _ => rfl) he
  obtain ⟨hinv, hinvCall⟩ := exec_transform (i := .invsubbytes) (op := 0x31#8) (invSubBytes coreConfig)
    (fun _ => rfl) he
  exact ⟨fun hp => ⟨⟨_, subBytes_get coreConfig s.sReg, hfwd hp⟩, ⟨_, invSubBytes_get coreConfig s.sReg, hinv hp⟩⟩,
    fun hp => ⟨hfwdCall hp, hinvCall hp⟩⟩

/-- R125: in buffer terms. -/
theorem shiftRows_getElem (m : Block) (r c : Fin 4) :
    (shiftRows m)[r.val + 4 * c.val]'(by omega) = m[r.val + 4 * ((c.val + r.val) % 4)]'(by omega) :=
  shiftRows_cell m r c

/-- R127: in buffer terms. -/
theorem invShiftRows_getElem (m : Block) (r c : Fin 4) :
    (invShiftRows m)[r.val + 4 * c.val]'(by omega) = m[r.val + 4 * ((c.val + 4 - r.val) % 4)]'(by omega) := by
  have hc : (c - r).val = (c.val + 4 - r.val) % 4 := by rw [Fin.val_sub]; congr 1; omega
  refine (invShiftRows_cell m r c).trans ?_
  simp only [Block.cell, Fin.getElem_fin, Block.index_val, hc]

/-- Settles O37: both commands are transforms, legal outside a call only. -/
theorem rowCommandsRotateEveryRow : Obligations.RowCommandsRotateEveryRow := by
  refine ⟨decode_encode (i := .shiftrows) rfl, decode_encode (i := .invshiftrows) rfl, fun s he => ?_⟩
  obtain ⟨hfwd, hfwdCall⟩ := exec_transform (i := .shiftrows) (op := 0x32#8) shiftRows (fun _ => rfl) he
  obtain ⟨hinv, hinvCall⟩ := exec_transform (i := .invshiftrows) (op := 0x33#8) invShiftRows (fun _ => rfl) he
  exact ⟨fun hp => ⟨⟨_, shiftRows_getElem s.sReg, hfwd hp⟩, ⟨_, invShiftRows_getElem s.sReg, hinv hp⟩⟩,
    fun hp => ⟨hfwdCall hp, hinvCall hp⟩⟩

/-- Settles O38: both commands are transforms, legal outside a call only. -/
theorem columnCommandsMixEveryColumn : Obligations.ColumnCommandsMixEveryColumn := by
  refine ⟨decode_encode (i := .mixcolumns) rfl, decode_encode (i := .invmixcolumns) rfl, fun s he => ?_⟩
  obtain ⟨hfwd, hfwdCall⟩ := exec_transform (i := .mixcolumns) (op := 0x34#8) mixColumns (fun _ => rfl) he
  obtain ⟨hinv, hinvCall⟩ := exec_transform (i := .invmixcolumns) (op := 0x35#8) invMixColumns (fun _ => rfl) he
  exact ⟨fun hp => ⟨⟨_, mixColumns_column s.sReg, hfwd hp⟩, ⟨_, invMixColumns_column s.sReg, hinv hp⟩⟩,
    fun hp => ⟨hfwdCall hp, hinvCall hp⟩⟩

/-! ### The round key -/

/-- R138: the round key application is its own inverse. -/
theorem addRoundKey_addRoundKey (m k : Block) : addRoundKey (addRoundKey m k) k = m :=
  Block.ext_cell fun r c => by simp

/-- R29: with a legal key length, byte `i` of the key matrix is key byte `i`. -/
theorem km_get (h : s.klen = 16#8 ∨ s.klen = 24#8 ∨ s.klen = 32#8) (i : Fin 16) :
    (s.km coreConfig)[i] = s.key[i.val]'(by omega) := by
  rw [Block.get_eq_cell]
  refine (firstBlock_take_cell s.key (sixteen_le_of_legal h) _ _).trans ?_
  simp only [Nat.mod_add_div]

/-- Settles O42: the command is a transform with the key matrix, which is legal in `READY` only. -/
theorem addRoundKeyXorsTheKeyMatrix : Obligations.AddRoundKeyXorsTheKeyMatrix := by
  refine ⟨fun m k => ⟨addRoundKey_get m k, addRoundKey_addRoundKey m k⟩, decode_encode (i := .addroundkey) rfl,
    fun s he => ?_⟩
  have hexec : exec .addroundkey s =
      command 0x36#8 [.ready] (fun s => s.setS (addRoundKey s.sReg (s.km coreConfig))) s := rfl
  refine ⟨fun hp hk => ⟨addRoundKey s.sReg (s.km coreConfig), fun i => ?_, ?_⟩, fun hp => ?_⟩
  · rw [addRoundKey_get, km_get hk]
  · exact hexec.trans (command_of_legal he (by simp [hp]))
  · exact hexec.trans (command_of_illegal he (by simpa using hp))

end Sys2Proof.Machine

/-! PROOFS. Family 42_block_pipeline: the two round pipelines as chains of rounds that undo each other (R151 to R156),
the commands that run them on the working State, and the forward one driven by hand with the transform commands. -/

namespace Sys2Proof.Machine

variable {cfg : Config} {s : State}

/-! ### The pipelines undo each other -/

/-- If `f` takes back `g` where it is seen through `h`, then `j` rounds of `f` take back `j` rounds of `g`. The rounds
of the two pipelines are cut at different places, and `h` is the half round between the cuts. -/
theorem iterate_undoes {f g h : Block → Block} (hround : ∀ x, f (h (g x)) = h x) (j : Nat) (x : Block) :
    f^[j] (h (g^[j] x)) = h x := by
  induction j with
  | zero => rfl
  | succ j ih => rw [Function.iterate_succ_apply, Function.iterate_succ_apply', hround, ih]

/-- R153: an inverse round takes back a full round that stands before the next substitution and rotation. -/
theorem invRound_undoes_fullRound (h : cfg.Lawful) (k x : Block) :
    invRound cfg k (shiftRows (subBytes cfg (fullRound cfg k x))) = shiftRows (subBytes cfg x) := by
  simp only [invRound, fullRound, invShiftRows_shiftRows, invSubBytes_subBytes h, addRoundKey_addRoundKey,
    invMixColumns_mixColumns]

/-- R151: the other way round. -/
theorem fullRound_undoes_invRound (h : cfg.Lawful) (k x : Block) :
    fullRound cfg k (invSubBytes cfg (invShiftRows (invRound cfg k x))) = invSubBytes cfg (invShiftRows x) := by
  simp only [invRound, fullRound, shiftRows_invShiftRows, subBytes_invSubBytes h, addRoundKey_addRoundKey,
    mixColumns_invMixColumns]

/-- R156: the last round key of the forward pipeline cancels the first of the inverse one, the rounds undo each other,
and what is left cancels in the final round. -/
theorem invCipher_cipher (h : cfg.Lawful) (m k : Block) (n : Nat) : invCipher cfg (cipher cfg m k n) k n = m := by
  have hrounds := iterate_undoes (h := fun x => shiftRows (subBytes cfg x)) (invRound_undoes_fullRound h k)
    (n - 1) (addRoundKey m k)
  simp only [invCipher, cipher, finalRound, invFinalRound, addRoundKey_addRoundKey, hrounds, invShiftRows_shiftRows,
    invSubBytes_subBytes h]

/-- R156, the other way round. -/
theorem cipher_invCipher (h : cfg.Lawful) (m k : Block) (n : Nat) : cipher cfg (invCipher cfg m k n) k n = m := by
  have hrounds := iterate_undoes (h := fun x => invSubBytes cfg (invShiftRows x)) (fullRound_undoes_invRound h k)
    (n - 1) (addRoundKey m k)
  simp only [invCipher, cipher, finalRound, invFinalRound, addRoundKey_addRoundKey, hrounds, shiftRows_invShiftRows,
    subBytes_invSubBytes h]

/-- Settles O44. -/
theorem invCipherUndoesCipher : Obligations.InvCipherUndoesCipher :=
  fun _ m k n h _ => ⟨invCipher_cipher h m k n, cipher_invCipher h m k n⟩

/-- Settles O43: state `j` of a chain is the `j`-th iterate of its round; the forward pipeline is a bijection because
the inverse one undoes it on both sides. -/
theorem pipelinesAreChainsOfRounds : Obligations.PipelinesAreChainsOfRounds := by
  refine ⟨fun cfg m k n _ => ?_, fun cfg m k n _ => ?_, fun cfg k n h _ => ?_⟩
  · exact ⟨fun j => (fullRound cfg k)^[j] (addRoundKey m k), rfl,
      fun j _ => Function.iterate_succ_apply' (fullRound cfg k) j _, rfl⟩
  · exact ⟨fun j => (invRound cfg k)^[j] (addRoundKey m k), rfl,
      fun j _ => Function.iterate_succ_apply' (invRound cfg k) j _, rfl⟩
  · exact Function.bijective_iff_has_inverse.mpr
      ⟨fun m => invCipher cfg m k n, fun m => invCipher_cipher h m k n, fun m => cipher_invCipher h m k n⟩

/-! ### The commands CIPHER and INVCIPHER -/

/-- R83, R120: a transform that is legal in `READY` only replaces the working State there and nothing else. -/
theorem command_transform_of_ready {op : Byte} (f : State → Block) (he : s.err = 0x00#8) (hp : s.phase = .ready) :
    command op [.ready] (fun s => s.setS (f s)) s = .next (s.noAnswer.setS (f s.noAnswer)) :=
  command_of_legal he (by simp [hp])

/-- R154 in `READY`. -/
theorem execWith_cipher_of_ready (cfg : Config) (he : s.err = 0x00#8) (hp : s.phase = .ready) :
    execWith cfg .cipher s = .next (s.noAnswer.setS (cipher cfg s.sReg (s.km cfg) s.nr.toNat)) :=
  command_transform_of_ready (op := 0x20#8) (fun s => cipher cfg s.sReg (s.km cfg) s.nr.toNat) he hp

/-- R155 in `READY`. -/
theorem execWith_invcipher_of_ready (cfg : Config) (he : s.err = 0x00#8) (hp : s.phase = .ready) :
    execWith cfg .invcipher s = .next (s.noAnswer.setS (invCipher cfg s.sReg (s.km cfg) s.nr.toNat)) :=
  command_transform_of_ready (op := 0x21#8) (fun s => invCipher cfg s.sReg (s.km cfg) s.nr.toNat) he hp

/-- R156 by commands: neither pipeline changes the key matrix or the round count that the other one uses. -/
theorem execWith_invcipher_after_cipher (h : cfg.Lawful) (he : s.err = 0x00#8) (hp : s.phase = .ready) :
    execWith cfg .invcipher (s.noAnswer.setS (cipher cfg s.sReg (s.km cfg) s.nr.toNat)) = .next s.noAnswer := by
  rw [execWith_invcipher_of_ready (s := s.noAnswer.setS _) cfg he hp]
  exact congrArg (fun b => Host.Outcome.next (s.noAnswer.setS b)) (invCipher_cipher h s.sReg (s.km cfg) s.nr.toNat)

/-- R156 by commands, the other way round. -/
theorem execWith_cipher_after_invcipher (h : cfg.Lawful) (he : s.err = 0x00#8) (hp : s.phase = .ready) :
    execWith cfg .cipher (s.noAnswer.setS (invCipher cfg s.sReg (s.km cfg) s.nr.toNat)) = .next s.noAnswer := by
  rw [execWith_cipher_of_ready (s := s.noAnswer.setS _) cfg he hp]
  exact congrArg (fun b => Host.Outcome.next (s.noAnswer.setS b)) (cipher_invCipher h s.sReg (s.km cfg) s.nr.toNat)

/-- Settles O45: both commands are legal in `READY` only, and there each takes back the other. -/
theorem pipelineCommandsRunOnTheWorkingState : Obligations.PipelineCommandsRunOnTheWorkingState := by
  refine ⟨decode_encode (i := .cipher) rfl, decode_encode (i := .invcipher) rfl, fun s he =>
    ⟨fun hp => ?_, fun hp => ?_, fun hp => ?_⟩⟩
  · exact ⟨execWith_cipher_of_ready coreConfig he hp, execWith_invcipher_of_ready coreConfig he hp⟩
  · have hillegal : s.phase ∉ [Phase.ready] := by simpa using hp
    exact ⟨execWith_of_illegal_phase (c := .cipher) rfl he hillegal,
      execWith_of_illegal_phase (c := .invcipher) rfl he hillegal⟩
  · exact ⟨⟨_, execWith_cipher_of_ready coreConfig he hp, execWith_invcipher_after_cipher coreConfig_lawful he hp⟩,
      ⟨_, execWith_invcipher_of_ready coreConfig he hp, execWith_cipher_after_invcipher coreConfig_lawful he hp⟩⟩

/-! ### The forward pipeline by hand -/

/-- R62: after a script that returned no byte, the next one runs as if it stood alone. -/
theorem transactAll_append_of_silent {a : List Instr} {t : State} (h : transactAll cfg a s = some (t, []))
    (b : List Instr) : transactAll cfg (a ++ b) s = transactAll cfg b t := by
  simp [transactAll_append, h]

/-- R83, R120: a legal transform command at the head of a script replaces the working State and returns no byte. -/
theorem transactAll_transform {i : Instr} {op : Byte} {legal : List Phase} (f : State → Block)
    (hi : execWith cfg i s = command op legal (fun s => s.setS (f s)) s) (he : s.err = 0x00#8) (hp : s.phase ∈ legal)
    (rest : List Instr) : transactAll cfg (i :: rest) s = transactAll cfg rest (s.noAnswer.setS (f s.noAnswer)) := by
  have ht : transact cfg i s = some (s.noAnswer.setS (f s.noAnswer)) := by
    rw [transact, hi, command_of_legal he hp]
  simp [transactAll, ht]

/-- R122 as the next command of a script. -/
theorem transactAll_subbytes (he : s.err = 0x00#8) (hp : s.phase = .ready) (rest : List Instr) :
    transactAll cfg (.subbytes :: rest) s = transactAll cfg rest (s.noAnswer.setS (subBytes cfg s.sReg)) :=
  transactAll_transform (fun s => subBytes cfg s.sReg) rfl he (by simp [hp]) rest

/-- R126 as the next command of a script. -/
theorem transactAll_shiftrows (he : s.err = 0x00#8) (hp : s.phase = .ready) (rest : List Instr) :
    transactAll cfg (.shiftrows :: rest) s = transactAll cfg rest (s.noAnswer.setS (shiftRows s.sReg)) :=
  transactAll_transform (fun s => shiftRows s.sReg) rfl he (by simp [hp]) rest

/-- R131 as the next command of a script. -/
theorem transactAll_mixcolumns (he : s.err = 0x00#8) (hp : s.phase = .ready) (rest : List Instr) :
    transactAll cfg (.mixcolumns :: rest) s = transactAll cfg rest (s.noAnswer.setS (mixColumns s.sReg)) :=
  transactAll_transform (fun s => mixColumns s.sReg) rfl he (by simp [hp]) rest

/-- R139 as the next command of a script. -/
theorem transactAll_addroundkey (he : s.err = 0x00#8) (hp : s.phase = .ready) (rest : List Instr) :
    transactAll cfg (.addroundkey :: rest) s =
      transactAll cfg rest (s.noAnswer.setS (addRoundKey s.sReg (s.km cfg))) :=
  transactAll_transform (fun s => addRoundKey s.sReg (s.km cfg)) rfl he (by simp [hp]) rest

/-- R151: a full round by hand. Every state on the way is `s.noAnswer` with another working State, so the next command
meets the same `ERR`, phase and key matrix. -/
theorem transactAll_fullRound (he : s.err = 0x00#8) (hp : s.phase = .ready) :
    transactAll cfg [.subbytes, .shiftrows, .mixcolumns, .addroundkey] s =
      some (s.noAnswer.setS (fullRound cfg (s.km cfg) s.sReg), []) :=
  (transactAll_subbytes he hp _).trans <| (transactAll_shiftrows (s := s.noAnswer.setS _) he hp _).trans <|
    (transactAll_mixcolumns (s := s.noAnswer.setS _) he hp _).trans <|
    transactAll_addroundkey (s := s.noAnswer.setS _) he hp []

/-- R151: the final round by hand. -/
theorem transactAll_finalRound (he : s.err = 0x00#8) (hp : s.phase = .ready) :
    transactAll cfg [.subbytes, .shiftrows, .addroundkey] s =
      some (s.noAnswer.setS (finalRound cfg (s.km cfg) s.sReg), []) :=
  (transactAll_subbytes he hp _).trans <| (transactAll_shiftrows (s := s.noAnswer.setS _) he hp _).trans <|
    transactAll_addroundkey (s := s.noAnswer.setS _) he hp []

/-- R151: `n` full rounds by hand, on a working State `b` that an earlier command has left. -/
theorem transactAll_fullRounds (he : s.err = 0x00#8) (hp : s.phase = .ready) (n : Nat) (b : Block) :
    transactAll cfg (List.replicate n [Instr.subbytes, .shiftrows, .mixcolumns, .addroundkey]).flatten
        (s.noAnswer.setS b) =
      some (s.noAnswer.setS ((fullRound cfg (s.km cfg))^[n] b), []) := by
  induction n generalizing b with
  | zero => rfl
  | succ n ih =>
    have hround := transactAll_fullRound (cfg := cfg) (s := s.noAnswer.setS b) he hp
    rw [List.replicate_succ, List.flatten_cons, transactAll_append_of_silent hround, Function.iterate_succ_apply]
    exact ih (fullRound cfg (s.km cfg) b)

/-- Settles O46: the script's three parts are the three parts of `cipher`, the first key, the full rounds and the final
round. -/
theorem pipelineByHandEqualsCipher : Obligations.PipelineByHandEqualsCipher := by
  intro cfg s he hp _
  refine ⟨_, execWith_cipher_of_ready cfg he hp, ?_⟩
  have hkey : transactAll cfg [.addroundkey] s = some (s.noAnswer.setS (addRoundKey s.sReg (s.km cfg)), []) :=
    transactAll_addroundkey he hp []
  rw [List.append_assoc, transactAll_append_of_silent hkey,
    transactAll_append_of_silent (transactAll_fullRounds he hp _ _)]
  exact transactAll_finalRound he hp

end Sys2Proof.Machine

/-! PROOFS. Family 43_ofb_stream: the commands and ports of a call (R172 to R190), the two calls as functions (R191 to
R194), and that the protocol realises them (R193). -/

namespace Sys2Proof.Machine

variable {cfg : Config} {s t : State} {i : Instr} {v : Byte}

/-! ### Opening a call -/

/-- R172, R182: the state in which a call of phase `p` is open. -/
def State.openCall (cfg : Config) (p : Phase) (s : State) : State :=
  { s.noAnswer.dropBuffers with fReg := s.ivm cfg, phase := p }

/-- R172, R182: with no unread output a start command opens a call. -/
theorem command_startCall_of_drained {op : Byte} (p : Phase) (he : s.err = 0x00#8) (hp : s.phase = .ready)
    (ho : s.ocnt = 0) :
    command op [.ready] (startCall cfg p) s = .next (s.openCall cfg p) := by
  have hdrained : s.noAnswer.ocnt = 0 := ho
  rw [command_of_legal he (by simp [hp]), startCall, if_pos hdrained]
  rfl

/-- R172, R182: with unread output a start command raises `E_OVERRUN`. -/
theorem command_startCall_of_unread {op : Byte} (p : Phase) (he : s.err = 0x00#8) (hp : s.phase = .ready)
    (ho : s.ocnt ≠ 0) :
    command op [.ready] (startCall cfg p) s =
      .next { s with err := 0x13#8, errinfo := s.ocntByte, rdata := none } := by
  have hunread : ¬ s.noAnswer.ocnt = 0 := ho
  rw [command_of_legal he (by simp [hp]), startCall, if_neg hunread, State.noAnswer_raise he]
  rfl

/-- Settles O47: both start commands are `startCall`, legal in `READY` only. -/
theorem startCommandsOpenACall : Obligations.StartCommandsOpenACall := by
  refine ⟨decode_encode (i := .encStart) rfl, decode_encode (i := .decStart) rfl, fun s he =>
    ⟨fun hp ho => ⟨command_startCall_of_drained .enc he hp ho, command_startCall_of_drained .dec he hp ho⟩,
     fun hp ho => ⟨command_startCall_of_unread (cfg := coreConfig) .enc he hp ho,
       command_startCall_of_unread (cfg := coreConfig) .dec he hp ho⟩,
     fun hp => ?_⟩⟩
  have hillegal : s.phase ∉ [Phase.ready] := by simpa using hp
  exact ⟨command_of_illegal he hillegal, command_of_illegal he hillegal⟩

/-! ### Pushing a byte -/

/-- R177: `ProcessBlock`, by the phase of the call. -/
def processBlock (cfg : Config) (s : State) : State := if s.phase = .enc then encBlock cfg s else decBlock cfg s

/-- R177, R178. -/
theorem processBlock_of_enc (hp : s.phase = .enc) : processBlock cfg s = encBlock cfg s := if_pos hp

/-- R177, R184. -/
theorem processBlock_of_dec (hp : s.phase = .dec) : processBlock cfg s = decBlock cfg s := if_neg (by simp [hp])

/-- R177, R187: what a block leaves unchanged in either call; `F` advances in any case. -/
theorem processBlock_frame (cfg : Config) (s : State) : ∃ ob olen zseen, processBlock cfg s =
    { s with fReg := s.nextKeystream cfg, ob := ob, olen := olen, ord := 0, zseen := zseen } := by
  by_cases hp : s.phase = .enc
  · exact ⟨_, _, _, processBlock_of_enc hp⟩
  · rw [processBlock, if_neg hp]
    exact decBlock_frame cfg s

/-- R33, R176: the state with `v` stored as the next byte of the block and the count `n`. -/
def State.storeByte (s : State) (v : Byte) (n : Fin 16) : State :=
  { s with ib := s.ib.set s.icnt v, icnt := n, rdata := none }

/-- R176: a byte that completes no block is stored. -/
theorem pushInCall_of_partial (process : State → State) (hc : s.icnt ≠ 15) :
    pushInCall process v s.noAnswer = s.storeByte v (s.icnt + 1) := by
  have hc' : s.noAnswer.icnt ≠ 15 := hc
  rw [pushInCall, if_neg (fun h => hc' h.1), if_neg hc']
  rfl

/-- R176: the byte that completes a block has it processed, where no output is unread. -/
theorem pushInCall_of_full (process : State → State) (hc : s.icnt = 15) (ho : s.ocnt = 0) :
    pushInCall process v s.noAnswer = process (s.storeByte v 0) := by
  have hc' : s.noAnswer.icnt = 15 := hc
  have ho' : s.noAnswer.ocnt = 0 := ho
  rw [pushInCall, if_neg (fun h => h.2 ho'), if_pos hc']
  rfl

/-- R176: the byte that would complete a block is refused while output is unread. -/
theorem pushInCall_of_unread (process : State → State) (he : s.err = 0x00#8) (hc : s.icnt = 15) (ho : s.ocnt ≠ 0) :
    pushInCall process v s.noAnswer = { s with err := 0x13#8, errinfo := s.ocntByte, rdata := none } := by
  have hfull : s.noAnswer.icnt = 15 ∧ s.noAnswer.ocnt ≠ 0 := ⟨hc, ho⟩
  rw [pushInCall, if_pos hfull, State.noAnswer_raise he]
  rfl

/-- R54, R176: inside a call a `PUSH` is the push of that call. -/
theorem execWith_push_of_call (v : Byte) (he : s.err = 0x00#8) (hp : s.phase = .enc ∨ s.phase = .dec) :
    execWith cfg (.push v) s = .next (pushInCall (processBlock cfg) v s.noAnswer) := by
  have hpush : execWith cfg (.push v) s = pushPort cfg v s := rfl
  rw [hpush, pushPort, guardedWrite_of_clear he]
  rcases hp with hp | hp <;> simp [hp, pushInCall, processBlock]

/-- R176: a `PUSH` of a byte that completes no block. -/
theorem execWith_push_of_partial (v : Byte) (he : s.err = 0x00#8) (hp : s.phase = .enc ∨ s.phase = .dec)
    (hc : s.icnt ≠ 15) : execWith cfg (.push v) s = .next (s.storeByte v (s.icnt + 1)) := by
  rw [execWith_push_of_call v he hp, pushInCall_of_partial _ hc]

/-- R176, R177: a `PUSH` of the byte that completes a block. -/
theorem execWith_push_of_full (v : Byte) (he : s.err = 0x00#8) (hp : s.phase = .enc ∨ s.phase = .dec)
    (hc : s.icnt = 15) (ho : s.ocnt = 0) :
    execWith cfg (.push v) s = .next (processBlock cfg (s.storeByte v 0)) := by
  rw [execWith_push_of_call v he hp, pushInCall_of_full _ hc ho]

/-- Settles O48: the two branches of a push that process no block, and the refused access outside a call. -/
theorem pushStoresTheNextByte : Obligations.PushStoresTheNextByte := by
  refine ⟨decode_write_din, fun s v he => ⟨fun hp hlt => ?_, fun hp hc ho => ?_, pushPort_of_idle he⟩⟩
  · have hc : s.icnt ≠ 15 := by rintro h; simp [h] at hlt
    have hnext : s.icnt + 1 = ⟨s.icnt.val + 1, by omega⟩ := Fin.ext (by simp [Fin.val_add]; omega)
    rw [exec_eq_execWith, execWith_push_of_partial v he hp hc, hnext]
    rfl
  · rw [exec_eq_execWith, execWith_push_of_call v he hp, pushInCall_of_unread _ he hc ho]
    rfl

/-- R33: the 16th byte goes to the last place of the block. -/
theorem storeByte_of_full (hc : s.icnt = 15) :
    s.storeByte v 0 = { s with ib := s.ib.set 15 v, icnt := 0, rdata := none } := by
  simp [State.storeByte, hc]

/-- Settles O49, from the push that completes a block. -/
theorem aCompletedBlockIsEncrypted : Obligations.ACompletedBlockIsEncrypted := by
  intro s v he hp hc ho
  refine ⟨_, Block.xor (s.ib.set 15 v) (s.nextKeystream coreConfig), rfl, fun i => Block.xor_get _ _ i, ?_⟩
  rw [exec_eq_execWith, execWith_push_of_full v he (.inl hp) hc ho, processBlock_of_enc (s := s.storeByte v 0) hp,
    storeByte_of_full hc]
  rfl

/-- R185: a place of the block that is that of the first zero byte. -/
theorem eq_zero_of_eq_firstZero (d : Block) (i : Fin 16) (h : i.val = (firstZero d).val) : d[i] = 0x00#8 := by
  have hz := zero_at_firstZero d (by omega)
  simpa [← h] using hz

/-- Settles O50: the push that completes a block, by the two cases of a block of a Decrypt call. -/
theorem aCompletedBlockIsDecrypted : Obligations.ACompletedBlockIsDecrypted := by
  intro s v he hp hc ho
  have hpush : exec (.push v) s =
      .next (decBlock coreConfig { s with ib := s.ib.set 15 v, icnt := 0, rdata := none }) := by
    rw [exec_eq_execWith, execWith_push_of_full v he (.inr hp) hc ho, processBlock_of_dec (s := s.storeByte v 0) hp,
      storeByte_of_full hc]
  refine ⟨_, Block.xor (s.ib.set 15 v) (s.nextKeystream coreConfig), rfl, fun i => Block.xor_get _ _ i, fun hz => ?_,
    fun hz => ?_⟩
  · rw [hpush, decBlock, if_pos hz]
    rfl
  · generalize hd : Block.xor (s.ib.set 15 v) (s.nextKeystream coreConfig) = d
    refine ⟨firstZero d, keepBefore (firstZero d) d, fun i hi => ⟨ne_zero_before_firstZero d i hi, by simp [hi]⟩,
      eq_zero_of_eq_firstZero d, fun i hi => by simp [Nat.not_lt.mpr hi], ?_⟩
    rw [hpush, decBlock, if_neg (by simp [hz]), ← hd]
    rfl

/-- R170: the keystream is the chain of forward pipelines from the IV matrix. -/
theorem keystream_succ (cfg : Config) (c : CipherInst) (j : Nat) :
    keystream cfg c (j + 1) = cipher cfg (keystream cfg c j) c.km c.rounds :=
  Function.iterate_succ_apply' _ j c.ivm

/-- R177, R187: a completed block advances `F` by one forward pipeline, whatever was pushed. -/
theorem execWith_push_fReg (v : Byte) (he : s.err = 0x00#8) (hp : s.phase = .enc ∨ s.phase = .dec)
    (hc : s.icnt = 15) (ho : s.ocnt = 0) :
    ∃ t, execWith cfg (.push v) s = .next t ∧ t.fReg = cipher cfg s.fReg (s.km cfg) s.nr.toNat := by
  obtain ⟨ob, olen, zseen, hframe⟩ := processBlock_frame cfg (s.storeByte v 0)
  exact ⟨_, execWith_push_of_full v he hp hc ho, by rw [hframe]; rfl⟩

/-- Settles O55: `F` after a completed block is a function of `F`, the key matrix and the round count. -/
theorem theKeystreamIgnoresThePayload : Obligations.TheKeystreamIgnoresThePayload := by
  intro cfg s s' v v' he hp hc ho he' hp' hc' ho' hf hkm hnr
  obtain ⟨t, ht, htf⟩ := execWith_push_fReg (cfg := cfg) v he hp hc ho
  obtain ⟨t', ht', htf'⟩ := execWith_push_fReg (cfg := cfg) v' he' hp' hc' ho'
  refine ⟨t, t', ht, ht', by rw [htf, htf', hf, hkm, hnr], fun j c hj hckm hcrounds => ?_⟩
  rw [htf, hj, keystream_succ, hckm, hcrounds]

/-! ### Ending a call -/

/-- R179: the state with its part-filled block padded. -/
def State.padBlock (s : State) : State := { s with ib := padFrom s.icnt s.ib, icnt := 0, rdata := none }

/-- R179: `ENC_FINAL` without a part-filled block. -/
theorem execWith_encFinal_of_whole (he : s.err = 0x00#8) (hp : s.phase = .enc) (hc : s.icnt = 0) :
    execWith cfg .encFinal s = .next (s.noAnswer.setPhase .ready) := by
  have hc' : s.noAnswer.icnt = 0 := hc
  have hlegal : s.phase ∈ [Phase.enc] := by simp [hp]
  exact (command_of_legal he hlegal).trans (congrArg _ (if_pos hc'))

/-- R179: `ENC_FINAL` with a part-filled block. -/
theorem execWith_encFinal_of_partial (he : s.err = 0x00#8) (hp : s.phase = .enc) (hc : s.icnt ≠ 0) (ho : s.ocnt = 0) :
    execWith cfg .encFinal s = .next ((encBlock cfg s.padBlock).setPhase .ready) := by
  have hc' : ¬ s.noAnswer.icnt = 0 := hc
  have ho' : ¬ s.noAnswer.ocnt ≠ 0 := not_not.mpr ho
  have hlegal : s.phase ∈ [Phase.enc] := by simp [hp]
  exact (command_of_legal he hlegal).trans (congrArg _ ((if_neg hc').trans (if_neg ho')))

/-- R179: `ENC_FINAL` with a part-filled block and unread output. -/
theorem execWith_encFinal_of_unread (he : s.err = 0x00#8) (hp : s.phase = .enc) (hc : s.icnt ≠ 0) (ho : s.ocnt ≠ 0) :
    execWith cfg .encFinal s = .next { s with err := 0x13#8, errinfo := s.ocntByte, rdata := none } := by
  have hc' : ¬ s.noAnswer.icnt = 0 := hc
  have ho' : s.noAnswer.ocnt ≠ 0 := ho
  have hlegal : s.phase ∈ [Phase.enc] := by simp [hp]
  exact (command_of_legal he hlegal).trans
    (congrArg _ (((if_neg hc').trans (if_pos ho')).trans (State.noAnswer_raise he _ _)))

/-- Settles O51, by the branches of `ENC_FINAL`. -/
theorem encFinalPadsTheLastBlock : Obligations.EncFinalPadsTheLastBlock := by
  refine ⟨decode_encode (i := .encFinal) rfl, fun s he => ⟨execWith_encFinal_of_whole he,
    execWith_encFinal_of_unread (cfg := coreConfig) he, fun hp hc ho => ?_, fun hp => ?_⟩⟩
  · exact ⟨_, padFrom s.icnt s.ib, (padFrom s.icnt s.ib).xor (s.nextKeystream coreConfig), rfl,
      fun i hi => by simp [hi], fun i hi => by simp [Nat.not_lt.mpr hi], fun i => Block.xor_get _ _ i,
      execWith_encFinal_of_partial he hp hc ho⟩
  · exact execWith_of_illegal_phase (c := .encFinal) (cfg := coreConfig) rfl he (by simpa [legalPhases] using hp)

/-- R186: `DEC_FINAL` without a part-filled block. -/
theorem execWith_decFinal_of_whole (he : s.err = 0x00#8) (hp : s.phase = .dec) (hc : s.icnt = 0) :
    execWith cfg .decFinal s = .next (s.noAnswer.setPhase .ready) := by
  have hc' : s.noAnswer.icnt = 0 := hc
  have hlegal : s.phase ∈ [Phase.dec] := by simp [hp]
  exact (command_of_legal he hlegal).trans (congrArg _ (if_pos hc'))

/-- R186: `DEC_FINAL` with a part-filled block. -/
theorem execWith_decFinal_of_partial (he : s.err = 0x00#8) (hp : s.phase = .dec) (hc : s.icnt ≠ 0) :
    execWith cfg .decFinal s = .next { s with err := 0x03#8, errinfo := s.icntByte, rdata := none } := by
  have hc' : ¬ s.noAnswer.icnt = 0 := hc
  have hlegal : s.phase ∈ [Phase.dec] := by simp [hp]
  exact (command_of_legal he hlegal).trans (congrArg _ ((if_neg hc').trans (State.noAnswer_raise he _ _)))

/-- Settles O52, by the branches of `DEC_FINAL`. -/
theorem decFinalChecksTheLength : Obligations.DecFinalChecksTheLength := by
  refine ⟨decode_encode (i := .decFinal) rfl, fun s he => ⟨execWith_decFinal_of_whole (cfg := coreConfig) he,
    execWith_decFinal_of_partial (cfg := coreConfig) he, fun hp => ?_⟩⟩
  exact execWith_of_illegal_phase (c := .decFinal) (cfg := coreConfig) rfl he (by simpa [legalPhases] using hp)

/-! ### Popping a byte -/

/-- R188: a `POP` with unread output. -/
theorem popPort_of_unread (he : s.err = 0x00#8) (h : s.ord.val < s.olen.val) :
    popPort s =
      .next { s with ord := ⟨s.ord.val + 1, by omega⟩, rdata := some (s.ob[s.ord.val]'(by omega)) } := by
  simp [popPort, he, Fin.lt_def, h, State.answer]

/-- Settles O53, by the branches of a `POP`. -/
theorem popTakesTheNextOutputByte : Obligations.PopTakesTheNextOutputByte := by
  refine ⟨decode_read_dout, fun s => ⟨fun he => if_pos he, fun he ho => ?_, popPort_of_unread⟩⟩
  have hdrained : ¬ s.ord < s.olen := Nat.not_lt.mpr (ocnt_eq_zero_iff.mp ho)
  simp [execPop, popPort, he, hdrained, State.raise, State.answer, errorCode]

/-- R185: a block of a Decrypt call leaves no zero byte in the output. -/
theorem decBlock_ob_ne_zero (cfg : Config) (s : State) (i : Fin 16) (hi : i.val < (decBlock cfg s).olen.val) :
    (decBlock cfg s).ob[i] ≠ 0x00#8 := by
  rcases decBlock_cases cfg s with ⟨-, hd⟩ | ⟨-, d, z, -, rfl, hd⟩ <;> rw [hd] at hi ⊢
  · exact absurd hi (Nat.not_lt_zero _)
  · have hlt : i.val < (firstZero d).val := hi
    simpa [hlt] using ne_zero_before_firstZero d i hlt

/-- R185: everything a transaction can do keeps the output of a Decrypt call free of zero bytes: it leaves `OB` and
`OLEN` alone, leaves the phase other than `DEC`, opens a call with no output, or processes a block. -/
theorem Effect.keeps_decOutputNonzero (ht : Effect cfg s i t) (h : s.DecOutputNonzero) : t.DecOutputNonzero := by
  cases ht with
  | destroyed | constructed | aborted | encStarted | encEnded | encPadded | decEnded => exact nofun
  | encrypted _ _ _ hp => exact fun hdec => by simp [encBlock, hp] at hdec
  | decStarted => exact fun _ i hi => absurd hi (Nat.not_lt_zero _)
  | decrypted => exact fun _ => decBlock_ob_ne_zero cfg _
  | _ => exact h

/-- Settles O12: reset is not in `DEC`, every effect of a transaction keeps the fact (`Effect.keeps_decOutputNonzero`),
and the byte a `POP` takes is a byte of the output. -/
theorem decryptOutputHasNoZeroByte : Obligations.DecryptOutputHasNoZeroByte := by
  refine ⟨nofun, fun s t h hs => ?_, fun s h hp he ho => ?_⟩
  · rcases answerEvent_cases hs with rfl | ⟨rest, rfl⟩ | ⟨w, rest, hw⟩
    · exact h
    · exact nofun
    · exact (exec_effect hw).keeps_decOutputNonzero h
  · have hlt : s.ord.val < s.olen.val := Nat.not_le.mp fun hle => ho (ocnt_eq_zero_iff.mpr hle)
    exact ⟨_, _, popPort_of_unread he hlt, rfl, h hp ⟨s.ord.val, by omega⟩ hlt⟩

/-! ### The two calls as functions -/

/-- R191, R192: the keystream byte of place `q` of the payload. -/
def keystreamByte (cfg : Config) (c : CipherInst) (q : Nat) : Byte := (keystream cfg c (q / 16 + 1))[q % 16]'(by omega)

/-- R170: byte `i` of keystream block `j + 1`. -/
theorem keystreamByte_of_block (cfg : Config) (c : CipherInst) (j : Nat) (i : Fin 16) :
    keystreamByte cfg c (16 * j + i.val) = (keystream cfg c (j + 1))[i] := by
  have hdiv : (16 * j + i.val) / 16 = j := by omega
  have hmod : (16 * j + i.val) % 16 = i.val := by omega
  simp [keystreamByte, hdiv, hmod]

variable {c : CipherInst}

@[simp] theorem xorStream_length (p : List Byte) : (xorStream cfg c p).length = p.length := by simp [xorStream]

/-- R191, R192: each byte of the payload is XORed with that of the keystream. -/
theorem xorStream_getElem? (p : List Byte) (q : Nat) :
    (xorStream cfg c p)[q]? = p[q]?.map (· ^^^ keystreamByte cfg c q) := by
  simp [xorStream, List.getElem?_mapIdx, keystreamByte]

/-- R194: the keystream XORed twice cancels. -/
theorem xorStream_xorStream (p : List Byte) : xorStream cfg c (xorStream cfg c p) = p := by
  refine List.ext_getElem? fun q => ?_
  simp [xorStream_getElem?, Function.comp_def]

@[simp] theorem zeroPad_length (p : List Byte) : (zeroPad p).length = 16 * ((p.length + 15) / 16) := by
  simp [zeroPad]; omega

/-- R191: byte `q` of the padded payload, where there is one. -/
theorem zeroPad_getElem? (p : List Byte) {q : Nat} (hq : q < (zeroPad p).length) :
    (zeroPad p)[q]? = some (p[q]?.getD 0x00#8) := by
  rw [zeroPad_length] at hq
  by_cases hp : q < p.length
  · simp [zeroPad, List.getElem?_append_left hp, hp]
  · have hn : q - p.length < 16 * ((p.length + 15) / 16) - p.length := by omega
    simp [zeroPad, List.getElem?_append_right (Nat.not_lt.mp hp), hn, List.getElem?_eq_none (Nat.not_lt.mp hp)]

/-- Settles O57, from the bytes of the padded payload and of the XORed stream. -/
theorem encryptPadsAndXorsTheKeystream : Obligations.EncryptPadsAndXorsTheKeystream := by
  refine fun cfg c p => ⟨by simp [encrypt], rfl, fun j i hi => ?_⟩
  rw [encrypt, xorStream_length] at hi
  rw [encrypt, xorStream_getElem?, zeroPad_getElem? p hi, keystreamByte_of_block]
  rfl

/-- R185, R192: the byte at which a list is cut before its first zero byte is that zero byte. -/
theorem getElem?_takeWhile_length {l : List Byte} {b : Byte}
    (h : l[(l.takeWhile (· ≠ 0x00#8)).length]? = some b) : b = 0x00#8 := by
  induction l with
  | nil => simp at h
  | cons a l ih =>
    by_cases ha : a = 0x00#8
    · have hb : 0x00#8 = b := by simpa [ha] using h
      exact hb.symm
    · exact ih (by simpa [ha] using h)

/-- R192: each byte kept of the stream is the XORed one, and not zero. -/
theorem decryptStream_getElem? {x : List Byte} {q : Nat} (hq : q < (decryptStream cfg c x).length) :
    ∃ b, x[q]? = some b ∧ (decryptStream cfg c x)[q]? = some (b ^^^ keystreamByte cfg c q) ∧
      (decryptStream cfg c x)[q]? ≠ some 0x00#8 := by
  have hprefix : decryptStream cfg c x <+: xorStream cfg c x := List.takeWhile_prefix _
  have hx : q < x.length := by simpa using hq.trans_le hprefix.length_le
  have hget : (decryptStream cfg c x)[q]? = some (x[q] ^^^ keystreamByte cfg c q) := by
    rw [List.getElem?_eq_getElem hq, hprefix.getElem hq, ← List.getElem?_eq_getElem, xorStream_getElem?,
      List.getElem?_eq_getElem hx]
    rfl
  refine ⟨x[q], List.getElem?_eq_getElem hx, hget, fun hzero => ?_⟩
  simpa using List.mem_takeWhile_imp (List.mem_of_getElem? hzero)

/-- R192: the byte at which `Decrypt` stops is zero. -/
theorem xor_keystreamByte_at_decryptStream_length {x : List Byte} {b : Byte}
    (h : x[(decryptStream cfg c x).length]? = some b) :
    b ^^^ keystreamByte cfg c (decryptStream cfg c x).length = 0x00#8 := by
  refine getElem?_takeWhile_length (l := xorStream cfg c x) ?_
  rw [xorStream_getElem?]
  exact congrArg (Option.map _) h

/-- R192: a list without a zero byte is kept whole. -/
theorem takeWhile_ne_zero_eq_self {x : List Byte} : x.takeWhile (· ≠ 0x00#8) = x ↔ 0x00#8 ∉ x := by
  rw [List.takeWhile_eq_self_iff]
  exact ⟨fun h hx => by simpa using h _ hx, fun h b hb => by simpa using ne_of_mem_of_not_mem hb h⟩

/-- R191, R192: the padding adds nothing before the first zero byte. -/
theorem takeWhile_zeroPad (p : List Byte) : (zeroPad p).takeWhile (· ≠ 0x00#8) = p.takeWhile (· ≠ 0x00#8) := by
  rw [zeroPad, List.takeWhile_append]
  split_ifs with h
  · rw [List.takeWhile_replicate, if_neg (by simp), List.append_nil, (List.takeWhile_prefix _).eq_of_length h]
  · rfl

/-- R194: `Decrypt` after `Encrypt`. -/
theorem decrypt_encrypt (cfg : Config) (c : CipherInst) (p : List Byte) :
    decrypt cfg c (encrypt cfg c p) = some (p.takeWhile (· ≠ 0x00#8)) := by
  have hlen : (encrypt cfg c p).length % 16 = 0 := by simp [encrypt]
  rw [decrypt, if_pos hlen, decryptStream, encrypt, xorStream_xorStream, takeWhile_zeroPad]

/-- Settles O58: the bytes before the first zero are those of `takeWhile`, and the keystream XORed twice cancels. -/
theorem decryptUndoesEncryptUpToTheFirstZero : Obligations.DecryptUndoesEncryptUpToTheFirstZero := by
  refine ⟨fun cfg c x => ⟨fun hx => if_neg hx, fun hx => ⟨decryptStream cfg c x, if_pos hx, ?_, fun q hq => ?_,
    fun b hb => ?_⟩⟩, fun cfg c p => ⟨decrypt_encrypt cfg c p, fun hp => ?_⟩⟩
  · simpa [decryptStream] using (List.takeWhile_prefix (l := xorStream cfg c x) (· ≠ 0x00#8)).length_le
  · exact decryptStream_getElem? hq
  · exact xor_keystreamByte_at_decryptStream_length hb
  · rw [decrypt_encrypt, takeWhile_ne_zero_eq_self.mpr hp]

/-! ### Blocks of the XORed stream -/

/-- R170, R191, R192: a further block of the payload is XORed with the next block of the keystream. -/
theorem xorStream_append_block {whole : List Byte} (hw : 16 ∣ whole.length) (d : Block) :
    xorStream cfg c (whole ++ d.toList) =
      xorStream cfg c whole ++ (d.xor (keystream cfg c (whole.length / 16 + 1))).toList := by
  rw [xorStream, List.mapIdx_append]
  refine congrArg _ (List.ext_getElem (by simp) fun i hi _ => ?_)
  have hi : i < 16 := by simpa using hi
  have hplace : i + whole.length = 16 * (whole.length / 16) + i := by omega
  have hbyte := keystreamByte_of_block cfg c (whole.length / 16) ⟨i, hi⟩
  simp only [← hplace] at hbyte
  simpa [keystreamByte] using hbyte

/-- R192: what is kept of a longer list; once a zero byte has been met, nothing more. -/
theorem takeWhile_ne_zero_append (x y : List Byte) : (x ++ y).takeWhile (· ≠ 0x00#8) =
    x.takeWhile (· ≠ 0x00#8) ++ if 0x00#8 ∈ x then [] else y.takeWhile (· ≠ 0x00#8) := by
  by_cases hx : 0x00#8 ∈ x
  · have hlen : (x.takeWhile (· ≠ 0x00#8)).length ≠ x.length := fun hlen =>
      takeWhile_ne_zero_eq_self.mp ((List.takeWhile_prefix _).eq_of_length hlen) hx
    rw [List.takeWhile_append, if_neg hlen, if_pos hx, List.append_nil]
  · rw [List.takeWhile_append, takeWhile_ne_zero_eq_self.mpr hx, if_pos rfl, if_neg hx]

/-- R185: the first `z` bytes kept are the first `z` bytes. -/
theorem keepBefore_take (z : Fin 17) (d : Block) : (keepBefore z d).toList.take z.val = d.toList.take z.val :=
  List.ext_getElem (by simp) fun i hi _ => by
    have hlt : i < z.val := by simp at hi; omega
    simp [hlt]

/-- R185: the bytes before the first zero one. -/
theorem take_firstZero (d : Block) : d.toList.take (firstZero d).val = d.toList.takeWhile (· ≠ 0x00#8) := by
  rw [List.takeWhile_eq_take_findIdx_not]
  simp [firstZero, beq_eq_decide]

/-- R185: whether there is a zero byte. -/
theorem firstZero_lt_iff (d : Block) : (firstZero d).val < 16 ↔ 0x00#8 ∈ d.toList := by
  have h := List.findIdx_lt_length (xs := d.toList) (p := (· == 0x00#8))
  simpa [firstZero] using h

/-! ### What a call does with a block -/

/-- R34: the unread output, in order. -/
def State.unread (s : State) : List Byte := (s.ob.toList.take s.olen.val).drop s.ord.val

/-- R178: the output of a block in `ENC`. -/
theorem encBlock_unread (cfg : Config) (s : State) :
    (encBlock cfg s).unread = (s.ib.xor (s.nextKeystream cfg)).toList := by
  simp [State.unread, encBlock]

/-- R184, R185: the output of a block in `DEC`, and whether a zero byte has been met. -/
theorem decBlock_unread {d : Block} (hd : d = s.ib.xor (s.nextKeystream cfg)) :
    (decBlock cfg s).unread = (if s.zseen = true then [] else d.toList.takeWhile (· ≠ 0x00#8)) ∧
    ((decBlock cfg s).zseen = true ↔ s.zseen = true ∨ 0x00#8 ∈ d.toList) := by
  rcases decBlock_cases cfg s with ⟨hz, hblock⟩ | ⟨hz, _, _, rfl, rfl, hblock⟩ <;> rw [hblock, hd]
  · simp [State.unread, hz]
  · simp [State.unread, hz, keepBefore_take, take_firstZero, firstZero_lt_iff]

/-- R25 to R28, R31: two states that hold the same key, IV, lengths, round count and working State. -/
structure State.SameInstance (s₀ s : State) : Prop where
  key : s.key = s₀.key
  iv : s.iv = s₀.iv
  klen : s.klen = s₀.klen
  ivlen : s.ivlen = s₀.ivlen
  nr : s.nr = s₀.nr
  sReg : s.sReg = s₀.sReg

/-- R192, R191: what a call outputs of the XORed stream. -/
def callOutput (p : Phase) (x : List Byte) : List Byte := if p = .dec then x.takeWhile (· ≠ 0x00#8) else x

/-- The state inside a call of phase `p`, begun in the ready state `s₀`, when the blocks `whole` have been
processed. -/
structure InCall (cfg : Config) (s₀ : State) (p : Phase) (whole : List Byte) (s : State) : Prop where
  same : s₀.SameInstance s
  err : s.err = 0x00#8
  phase : s.phase = p
  blocks : 16 ∣ whole.length
  fReg : s.fReg = keystream cfg (s₀.inst cfg) (whole.length / 16)
  ord_le_olen : s.ord.val ≤ s.olen.val
  /-- R35: in `DEC`, whether a zero byte has been met. -/
  zseen : p = .dec → (s.zseen = true ↔ 0x00#8 ∈ xorStream cfg (s₀.inst cfg) whole)

variable {s₀ : State} {p : Phase} {whole : List Byte}

/-- R177: inside a call the feedback register advances along the keystream. -/
theorem InCall.nextKeystream (h : InCall cfg s₀ p whole s) :
    s.nextKeystream cfg = keystream cfg (s₀.inst cfg) (whole.length / 16 + 1) := by
  rw [State.nextKeystream, keystream_succ, h.fReg, State.km, h.same.key, h.same.klen, h.same.nr]
  rfl

/-- R177, R184 to R187: a block processed inside a call, and what it adds to the output. -/
theorem InCall.block (h : InCall cfg s₀ p whole s) (hp : p = .enc ∨ p = .dec) :
    InCall cfg s₀ p (whole ++ s.ib.toList) (processBlock cfg s) ∧
    callOutput p (xorStream cfg (s₀.inst cfg) (whole ++ s.ib.toList)) =
      callOutput p (xorStream cfg (s₀.inst cfg) whole) ++ (processBlock cfg s).unread := by
  have hlen : 16 ∣ (whole ++ s.ib.toList).length := by simpa using h.blocks
  have hcount : (whole ++ s.ib.toList).length / 16 = whole.length / 16 + 1 := by simp
  rw [xorStream_append_block h.blocks, ← h.nextKeystream]
  rcases hp with rfl | rfl
  · rw [processBlock_of_enc h.phase, encBlock_unread]
    exact ⟨{ h with
      same := { h.same with }
      blocks := hlen
      fReg := hcount ▸ h.nextKeystream
      ord_le_olen := Nat.zero_le _
      zseen := nofun }, rfl⟩
  · rw [processBlock_of_dec h.phase]
    obtain ⟨hout, hz⟩ := decBlock_unread (cfg := cfg) (s := s) rfl
    refine ⟨?_, ?_⟩
    · obtain ⟨ob, olen, zseen, hd⟩ := decBlock_frame cfg s
      rw [hd] at hz ⊢
      refine { h with
        same := { h.same with }
        blocks := hlen
        fReg := hcount ▸ h.nextKeystream
        ord_le_olen := Nat.zero_le _
        zseen := fun _ => ?_ }
      rw [xorStream_append_block h.blocks, ← h.nextKeystream, List.mem_append, ← h.zseen rfl]
      exact hz
    · simp only [hout, callOutput, if_true, takeWhile_ne_zero_append, h.zseen rfl]

/-! ### Sending a payload -/

/-- R33: the bytes of the block that is part filled. -/
def State.partBlock (s : State) : List Byte := s.ib.toList.take s.icnt.val

@[simp] theorem State.partBlock_length (s : State) : s.partBlock.length = s.icnt.val := by
  simp [State.partBlock]

/-- R176: the byte stored follows those of the part-filled block. -/
theorem storeByte_ib_take (s : State) (v : Byte) (n : Fin 16) :
    (s.storeByte v n).ib.toList.take (s.icnt.val + 1) = s.partBlock ++ [v] := by
  have hlist : (s.storeByte v n).ib.toList = s.ib.toList.set s.icnt.val v := Vector.toList_set s.icnt.isLt
  have hlt : s.icnt.val < (s.ib.toList.set s.icnt.val v).length := by simp
  rw [hlist, List.take_succ_eq_append_getElem hlt, List.take_set_of_le le_rfl, List.getElem_set_self]
  rfl

/-- R176: a byte that completes no block makes the part-filled block longer. -/
theorem storeByte_partBlock (hc : s.icnt ≠ 15) : (s.storeByte v (s.icnt + 1)).partBlock = s.partBlock ++ [v] := by
  have hnext : (s.icnt + 1).val = s.icnt.val + 1 := Fin.val_add_one_of_lt (lt_of_le_of_ne (Fin.le_last _) hc)
  rw [← storeByte_ib_take s v (s.icnt + 1), ← hnext]
  rfl

/-- R176: a byte that completes a block. -/
theorem storeByte_ib_of_full (hc : s.icnt = 15) : (s.storeByte v 0).ib.toList = s.partBlock ++ [v] := by
  rw [← storeByte_ib_take s v 0, List.take_of_length_le (by simp [hc])]

/-- A transaction with a next state. -/
theorem transact_of_next (h : execWith cfg i s = .next t) : transact cfg i s = some t := by simp [transact, h]

/-- R89: `SEND` of a byte that completes no block. -/
theorem send_cons_of_partial {rest : List Byte} (h : execWith cfg (.push v) s = .next t) (hc : t.icnt ≠ 0) :
    send cfg (v :: rest) s = send cfg rest t := by
  cases hs : send cfg rest t <;> simp [send, transact_of_next h, hc, hs]

/-- R89: `SEND` of a byte that completes a block, after which the output is drained. -/
theorem send_cons_of_full {rest out : List Byte} {u : State} (h : execWith cfg (.push v) s = .next t) (hc : t.icnt = 0)
    (hd : drain cfg t = some (u, out)) :
    send cfg (v :: rest) s = (send cfg rest u).map fun q => (q.1, out ++ q.2) := by
  cases hs : send cfg rest u <;> simp [send, transact_of_next h, hc, hd, hs]

/-- R89: a `DRAIN` inside a call reads all unread output, and the call goes on. -/
theorem InCall.drain (h : InCall cfg s₀ p whole s) :
    ∃ t, drain cfg s = some (t, s.unread) ∧ InCall cfg s₀ p whole t ∧ t.ocnt = 0 ∧ t.icnt = s.icnt := by
  obtain ⟨r, hr⟩ := drain_spec (cfg := cfg) h.err h.ord_le_olen
  exact ⟨_, hr, { h with same := { h.same with }, ord_le_olen := le_rfl }, Nat.sub_self _, rfl⟩

/-- R176: a byte stored in a call. -/
theorem InCall.storeByte (h : InCall cfg s₀ p whole s) (v : Byte) (n : Fin 16) :
    InCall cfg s₀ p whole (s.storeByte v n) := { h with same := { h.same with } }

/-- R89, R176 to R187: `SEND` inside a call pops the output of the blocks it completes; the other bytes stay in the
part-filled block. -/
theorem InCall.send (hp : p = .enc ∨ p = .dec) (payload : List Byte) :
    ∀ {whole : List Byte} {s : State}, InCall cfg s₀ p whole s → s.ocnt = 0 →
    ∃ whole' t out, send cfg payload s = some (t, out) ∧ InCall cfg s₀ p whole' t ∧ t.ocnt = 0 ∧
      whole' ++ t.partBlock = whole ++ s.partBlock ++ payload ∧
      callOutput p (xorStream cfg (s₀.inst cfg) whole') = callOutput p (xorStream cfg (s₀.inst cfg) whole) ++ out := by
  induction payload with
  | nil => exact fun {whole s} h ho => ⟨whole, s, [], rfl, h, ho, by simp, by simp⟩
  | cons v rest ih =>
    intro whole s h ho
    have hcall : s.phase = .enc ∨ s.phase = .dec := h.phase ▸ hp
    by_cases hc : s.icnt = 15
    · have hpush := execWith_push_of_full (cfg := cfg) v h.err hcall hc ho
      obtain ⟨hblock, hout⟩ := (h.storeByte v 0).block hp
      obtain ⟨u, hdrain, hu, huo, huc⟩ := hblock.drain
      have htc : (processBlock cfg (s.storeByte v 0)).icnt = 0 := by
        obtain ⟨ob, olen, zseen, hframe⟩ := processBlock_frame cfg (s.storeByte v 0)
        rw [hframe]; rfl
      have hpart : u.partBlock = [] := List.eq_nil_of_length_eq_zero (by simp [huc, htc])
      obtain ⟨whole', t, out, hsend, ht, hto, hbytes, hmore⟩ := ih hu huo
      refine ⟨whole', t, _, by rw [send_cons_of_full hpush htc hdrain, hsend]; rfl, ht, hto, ?_, ?_⟩
      · rw [hbytes, hpart, storeByte_ib_of_full hc]; simp
      · rw [hmore, hout, List.append_assoc]
    · have hpush := execWith_push_of_partial (cfg := cfg) v h.err hcall hc
      have htc : (s.storeByte v (s.icnt + 1)).icnt ≠ 0 := fun h0 => hc (by have h0 : s.icnt + 1 = 0 := h0; omega)
      obtain ⟨whole', t, out, hsend, ht, hto, hbytes, hmore⟩ := ih (h.storeByte v (s.icnt + 1)) ho
      refine ⟨whole', t, out, (send_cons_of_partial hpush htc).trans hsend, ht, hto, ?_, hmore⟩
      rw [hbytes, storeByte_partBlock hc]; simp

/-- R89, R172, R182: a call opened from a ready state, with its payload sent. -/
theorem send_of_opened (hp : p = .enc ∨ p = .dec) (he : s.err = 0x00#8) (payload : List Byte) :
    ∃ whole t, send cfg payload (s.openCall cfg p) =
        some (t, callOutput p (xorStream cfg (s.inst cfg) whole)) ∧
      InCall cfg s p whole t ∧ t.ocnt = 0 ∧ whole ++ t.partBlock = payload := by
  have hopen : InCall cfg s p [] (s.openCall cfg p) :=
    { same := ⟨rfl, rfl, rfl, rfl, rfl, rfl⟩, err := he, phase := rfl, blocks := by simp, fReg := rfl,
      ord_le_olen := le_rfl, zseen := fun _ => by simp [State.openCall, xorStream] }
  obtain ⟨whole, t, out, hsend, ht, hto, hbytes, hout⟩ := hopen.send hp payload rfl
  have hout : callOutput p (xorStream cfg (s.inst cfg) whole) = out := by simpa [callOutput, xorStream] using hout
  exact ⟨whole, t, hout ▸ hsend, ht, hto, by simpa [State.partBlock, State.openCall] using hbytes⟩

/-! ### The two calls -/

/-- R89: a call, from what its parts do. -/
theorem runCall_of_parts {start final : Instr} {payload out more : List Byte} {u u' w : State}
    (hstart : execWith cfg start s = .next t) (hsend : send cfg payload t = some (u, out))
    (hfinal : execWith cfg final u = .next u') (hdrain : drain cfg u' = some (w, more)) :
    runCall cfg start final payload s = some (w, out ++ more) := by
  simp [runCall, transact_of_next hstart, hsend, transact_of_next hfinal, hdrain]

/-- R89: a `DRAIN` with no unread output, also while an error is pending. -/
theorem drain_of_drained (ho : s.ocnt = 0) : drain cfg s = some (s.answer 0x00#8, []) := by
  have hread : transact cfg (.rd 0x08#8) s = some (s.answer s.ocntByte) := rfl
  have hzero : s.ocntByte = 0x00#8 := by rw [State.ocntByte, ho]
  simp [drain, hread, hzero, transactAll]

/-- R179, R191: a payload of whole blocks is not padded. -/
theorem zeroPad_of_whole {x : List Byte} (h : 16 ∣ x.length) : zeroPad x = x := by
  have hnone : 16 * ((x.length + 15) / 16) - x.length = 0 := by omega
  simp [zeroPad, hnone]

/-- R179, R191: whole blocks and a part-filled one, padded. -/
theorem zeroPad_append_partBlock (h : 16 ∣ whole.length) (hc : s.icnt ≠ 0) :
    zeroPad (whole ++ s.partBlock) = whole ++ (padFrom s.icnt s.ib).toList := by
  have hpos : s.icnt.val ≠ 0 := Fin.val_ne_zero_iff.mpr hc
  have hn : 16 * ((whole.length + s.icnt.val + 15) / 16) - (whole.length + s.icnt.val) = 16 - s.icnt.val := by omega
  rw [zeroPad, List.length_append, State.partBlock_length, hn, List.append_assoc]
  refine congrArg _ (List.ext_getElem (by simp) fun i hi _ => ?_)
  by_cases hlt : i < s.icnt.val <;> simp [List.getElem_append, State.partBlock, hlt]

/-- R179: a call whose part-filled block has been padded. -/
theorem InCall.padBlock (h : InCall cfg s₀ p whole s) : InCall cfg s₀ p whole s.padBlock :=
  { h with same := { h.same with } }

/-- R179, R89: `ENC_FINAL` and the last `DRAIN`. -/
theorem InCall.encFinal (h : InCall cfg s₀ .enc whole s) (ho : s.ocnt = 0) :
    ∃ u t more, execWith cfg .encFinal s = .next u ∧ Machine.drain cfg u = some (t, more) ∧
      t.err = 0x00#8 ∧ t.phase = .ready ∧ t.ocnt = 0 ∧ s₀.SameInstance t ∧
      t.fReg = keystream cfg (s₀.inst cfg) (((whole ++ s.partBlock).length + 15) / 16) ∧
      encrypt cfg (s₀.inst cfg) (whole ++ s.partBlock) = xorStream cfg (s₀.inst cfg) whole ++ more := by
  by_cases hc : s.icnt = 0
  · have hpart : s.partBlock = [] := List.eq_nil_of_length_eq_zero (by simp [hc])
    have hcount : (whole.length + 15) / 16 = whole.length / 16 := by have := h.blocks; omega
    refine ⟨_, _, [], execWith_encFinal_of_whole h.err h.phase hc, drain_of_drained ho, h.err, rfl, ho,
      { h.same with }, ?_, ?_⟩
    · rw [hpart, List.append_nil, hcount]
      exact h.fReg
    · rw [hpart, List.append_nil, List.append_nil, encrypt, zeroPad_of_whole h.blocks]
  · have hpos : s.icnt.val ≠ 0 := Fin.val_ne_zero_iff.mpr hc
    have hcount : (whole.length + s.icnt.val + 15) / 16 = whole.length / 16 + 1 := by have := h.blocks; omega
    obtain ⟨hblock, hout⟩ := h.padBlock.block (.inl rfl)
    rw [processBlock_of_enc (s := s.padBlock) h.phase] at hblock hout
    obtain ⟨r, hdrain⟩ := drain_spec (cfg := cfg) (s := (encBlock cfg s.padBlock).setPhase .ready) hblock.err
      hblock.ord_le_olen
    refine ⟨_, _, _, execWith_encFinal_of_partial h.err h.phase hc ho, hdrain, hblock.err, rfl, Nat.sub_self _,
      { hblock.same with }, ?_, ?_⟩
    · rw [List.length_append, State.partBlock_length, hcount]
      simpa [State.padBlock] using hblock.fReg
    · rw [encrypt, zeroPad_append_partBlock h.blocks hc]
      exact hout

/-- Settles O59: the call opens (`send_of_opened`), sends its payload (`InCall.send`) and ends (`InCall.encFinal`). -/
theorem theProtocolRealisesEncrypt : Obligations.TheProtocolRealisesEncrypt := by
  intro cfg s payload he hp ho
  obtain ⟨whole, u, hsend, hu, huo, rfl⟩ := send_of_opened (cfg := cfg) (p := .enc) (.inl rfl) he payload
  obtain ⟨v, t, more, hfinal, hdrain, hte, htp, hto, hsame, hf, hout⟩ := hu.encFinal huo
  refine ⟨t, ?_, hte, htp, hto, hf, hsame.key, hsame.iv, hsame.sReg, hsame.nr⟩
  have hstart : execWith cfg .encStart s = .next (s.openCall cfg .enc) := command_startCall_of_drained .enc he hp ho
  rw [hout]
  exact runCall_of_parts hstart hsend hfinal hdrain

/-- R186, R89: `DEC_FINAL` and the last `DRAIN`, which finds nothing. -/
theorem InCall.decFinal (h : InCall cfg s₀ .dec whole s) (ho : s.ocnt = 0) :
    ∃ u t, execWith cfg .decFinal s = .next u ∧ Machine.drain cfg u = some (t, []) ∧
      t.ocnt = 0 ∧ t.fReg = s.fReg ∧ s₀.SameInstance t ∧
      (s.icnt.val = 0 → t.err = 0x00#8 ∧ t.phase = .ready) ∧
      (s.icnt.val ≠ 0 → t.err = 0x03#8 ∧ t.errinfo = s.icntByte ∧ t.phase = .dec) := by
  by_cases hc : s.icnt = 0
  · exact ⟨_, _, execWith_decFinal_of_whole h.err h.phase hc, drain_of_drained ho, ho, rfl, { h.same with },
      fun _ => ⟨h.err, rfl⟩, fun hne => absurd (Fin.val_eq_zero_iff.mpr hc) hne⟩
  · exact ⟨_, _, execWith_decFinal_of_partial h.err h.phase hc, drain_of_drained ho, ho, rfl, { h.same with },
      fun h0 => absurd (Fin.val_eq_zero_iff.mp h0) hc, fun _ => ⟨rfl, rfl, h.phase⟩⟩

/-- R193, Decrypt: what is popped are the bytes of the whole blocks before the first zero one. -/
theorem decryptCall_of_ready (cfg : Config) (x : List Byte) (he : s.err = 0x00#8) (hp : s.phase = .ready)
    (ho : s.ocnt = 0) :
    ∃ t, decryptCall cfg x s = some (t, decryptStream cfg (s.inst cfg) (x.take (16 * (x.length / 16)))) ∧
      t.ocnt = 0 ∧ t.fReg = keystream cfg (s.inst cfg) (x.length / 16) ∧ s.SameInstance t ∧
      (x.length % 16 = 0 → t.err = 0x00#8 ∧ t.phase = .ready) ∧
      (x.length % 16 ≠ 0 → t.err = 0x03#8 ∧ t.errinfo = BitVec.ofNat 8 (x.length % 16) ∧ t.phase = .dec) := by
  obtain ⟨whole, u, hsend, hu, huo, rfl⟩ := send_of_opened (cfg := cfg) (p := .dec) (.inr rfl) he x
  obtain ⟨v, t, hfinal, hdrain, hto, hf, hsame, hwhole, hpartial⟩ := hu.decFinal huo
  have hblocks := hu.blocks
  have hlen : (whole ++ u.partBlock).length = whole.length + u.icnt.val := by simp
  have hmod : (whole ++ u.partBlock).length % 16 = u.icnt.val := by omega
  have hdiv : (whole ++ u.partBlock).length / 16 = whole.length / 16 := by omega
  rw [hmod, hdiv, Nat.mul_div_cancel' hblocks, List.take_left]
  refine ⟨t, ?_, hto, hf.trans hu.fReg, hsame, hwhole, hpartial⟩
  have hstart : execWith cfg .decStart s = .next (s.openCall cfg .dec) := command_startCall_of_drained .dec he hp ho
  have hcall := runCall_of_parts hstart hsend hfinal hdrain
  rwa [List.append_nil] at hcall

/-- Settles O60: the bytes popped by the call (`decryptCall_of_ready`) are `Decrypt` of the whole blocks. -/
theorem theProtocolRealisesDecrypt : Obligations.TheProtocolRealisesDecrypt := by
  intro cfg s x he hp ho
  obtain ⟨t, hcall, hto, hf, hsame, hwhole, hpartial⟩ := decryptCall_of_ready cfg x he hp ho
  refine ⟨t, _, hcall, hto, hf, hsame.key, hsame.iv, hsame.sReg, hsame.nr, fun hx => ?_, fun hx => ?_⟩
  · obtain ⟨hte, htp⟩ := hwhole hx
    have htake : x.take (16 * (x.length / 16)) = x := List.take_of_length_le (by omega)
    exact ⟨hte, htp, by rw [htake, decrypt, if_pos hx]⟩
  · obtain ⟨hte, htinfo, htp⟩ := hpartial hx
    have hlen : (x.take (16 * (x.length / 16))).length % 16 = 0 := by rw [List.length_take]; omega
    exact ⟨hte, htinfo, htp, if_pos hlen⟩

/-- R196: the same key, IV, lengths and round count give the same `State.inst`. -/
theorem inst_congr {s s' : State} (hkey : s.key = s'.key) (hiv : s.iv = s'.iv) (hklen : s.klen = s'.klen)
    (hivlen : s.ivlen = s'.ivlen) (hnr : s.nr = s'.nr) : s.inst cfg = s'.inst cfg := by
  simp [State.inst, State.km, State.ivm, hkey, hiv, hklen, hivlen, hnr]

/-- Settles O56: what a call pops and leaves in `F` is a function of `State.inst` and the payload, by the two
realisations. -/
theorem aCallDependsOnTheInstanceAndThePayloadOnly : Obligations.ACallDependsOnTheInstanceAndThePayloadOnly := by
  intro cfg s s' payload he hp ho he' hp' ho' hkey hiv hklen hivlen hnr
  have hinst : s.inst cfg = s'.inst cfg := inst_congr hkey hiv hklen hivlen hnr
  constructor
  · obtain ⟨t, hcall, -, -, -, hf, -, -, hS, -⟩ := theProtocolRealisesEncrypt cfg s payload he hp ho
    obtain ⟨t', hcall', -, -, -, hf', -, -, hS', -⟩ := theProtocolRealisesEncrypt cfg s' payload he' hp' ho'
    exact ⟨t, t', _, hcall, hinst ▸ hcall', by rw [hf, hf', hinst], hS, hS'⟩
  · obtain ⟨t, hcall, -, hf, hsame, -, -⟩ := decryptCall_of_ready cfg payload he hp ho
    obtain ⟨t', hcall', -, hf', hsame', -, -⟩ := decryptCall_of_ready cfg payload he' hp' ho'
    exact ⟨t, t', _, hcall, hinst ▸ hcall', by rw [hf, hf', hinst], hsame.sReg, hsame'.sReg⟩

end Sys2Proof.Machine

/-! PROOFS. Family 44_lifecycle: construction as a function and by `INIT`, `DESTROY`, `CLRERR`, `NOP` and `ABORT`
(R210 to R215). -/

namespace Sys2Proof.Machine

variable {cfg : Config} {s : State} {l : KeyLen}

/-! ### Construction as a function -/

/-- R210: a key of no legal length. -/
theorem construct_of_illegal_key {key : List Byte} (hk : keyLenOf key.length = none) (iv : List Byte) :
    construct cfg key iv = .error .keyLength := by
  rw [construct, hk]

/-- R210: a key of a legal length, an IV of another one. -/
theorem construct_of_iv_mismatch {key iv : List Byte} (hk : keyLenOf key.length = some l)
    (hv : iv.length ≠ key.length) : construct cfg key iv = .error .ivLength := by
  rw [construct, hk]
  exact if_neg hv

/-- R210: a key of a legal length and an IV as long. -/
theorem construct_of_legal {key iv : List Byte} (hk : keyLenOf key.length = some l) (hv : iv.length = key.length) :
    construct cfg key iv = .ok ⟨cfg.keymap key, cfg.ivmap iv, (cfg.nr l).toNat⟩ := by
  rw [construct, hk]
  exact if_pos hv

/-! ### INIT -/

/-- R212: in `UNCONF` the command does its body. -/
theorem execInitWith_of_unconf (cfg : Config) (he : s.err = 0x00#8) (hp : s.phase = .unconf) :
    execInitWith cfg s = .next (initBody cfg s.noAnswer) :=
  command_of_legal he (by simp [hp])

/-- R212: `INIT` with no legal key length staged. -/
theorem execInitWith_of_illegal_klen (he : s.err = 0x00#8) (hp : s.phase = .unconf)
    (hk : keyLenOf s.klen.toNat = none) :
    execInitWith cfg s = .next { s with err := 0x01#8, errinfo := s.klen, rdata := none } := by
  rw [execInitWith_of_unconf cfg he hp, initBody, State.noAnswer_klen, hk]
  exact congrArg _ (State.noAnswer_raise he .keylen s.klen)

/-- R212: `INIT` with a legal key length and another IV length staged. -/
theorem execInitWith_of_ivlen_mismatch (he : s.err = 0x00#8) (hp : s.phase = .unconf)
    (hk : keyLenOf s.klen.toNat = some l) (hv : s.ivlen ≠ s.klen) :
    execInitWith cfg s = .next { s with err := 0x02#8, errinfo := s.ivlen, rdata := none } := by
  rw [execInitWith_of_unconf cfg he hp, initBody, State.noAnswer_klen, hk]
  exact congrArg _ ((if_neg hv).trans (State.noAnswer_raise he .ivlen s.ivlen))

/-- R212: `INIT` with a legal key length and the same IV length staged. -/
theorem execInitWith_of_legal (he : s.err = 0x00#8) (hp : s.phase = .unconf)
    (hk : keyLenOf s.klen.toNat = some l) (hv : s.ivlen = s.klen) :
    execInitWith cfg s = .next { s with nr := cfg.nr l, phase := .ready, rdata := none } := by
  rw [execInitWith_of_unconf cfg he hp, initBody, State.noAnswer_klen, hk]
  exact congrArg _ (if_pos hv)

/-- R15: a staging buffer holds every length up to 32. -/
theorem length_take_of_le (b : Buf32) {n : Nat} (hn : n ≤ 32) : (b.toList.take n).length = n := by
  simpa using hn

/-- Settles O21: the cases of `construct` on the staged bytes are those of `INIT` on the staged lengths. -/
theorem initIsTheSourcesConstruction : Obligations.InitIsTheSourcesConstruction := by
  refine fun cfg => ⟨fun key iv => ⟨fun hk => construct_of_illegal_key (keyLenOf_eq_none.mpr hk) iv,
    fun l hk => construct_of_iv_mismatch (keyLenOf_eq_some.mpr hk),
    fun l hk => construct_of_legal (keyLenOf_eq_some.mpr hk)⟩, fun s he hp hkmax hvmax => ?_⟩
  have hklen := length_take_of_le s.key hkmax
  have hivlen := length_take_of_le s.iv hvmax
  cases hk : keyLenOf s.klen.toNat with
  | none =>
    have hkey : keyLenOf (s.key.toList.take s.klen.toNat).length = none := by rw [hklen, hk]
    exact ⟨_, execInitWith_of_illegal_klen he hp hk, .inr (.inl ⟨construct_of_illegal_key hkey _, hp, rfl⟩)⟩
  | some l =>
    have hkey : keyLenOf (s.key.toList.take s.klen.toNat).length = some l := by rw [hklen, hk]
    have hlengths : (s.iv.toList.take s.ivlen.toNat).length = (s.key.toList.take s.klen.toNat).length ↔
        s.ivlen = s.klen := by rw [hklen, hivlen, BitVec.toNat_inj]
    by_cases hv : s.ivlen = s.klen
    · exact ⟨_, execInitWith_of_legal he hp hk hv,
        .inl ⟨_, construct_of_legal hkey (hlengths.mpr hv), rfl, rfl, he⟩⟩
    · exact ⟨_, execInitWith_of_ivlen_mismatch he hp hk hv,
        .inr (.inr ⟨construct_of_iv_mismatch hkey (mt hlengths.mp hv), hp, rfl⟩)⟩

/-- R8: a byte that is none of the three lengths is no key length. -/
theorem keyLenOf_toNat_eq_none {n : Byte} (h : n ≠ 16#8 ∧ n ≠ 24#8 ∧ n ≠ 32#8) : keyLenOf n.toNat = none :=
  keyLenOf_eq_none.mpr (by bv_omega)

/-- R8: a byte that is one of the three lengths is a key length. -/
theorem exists_keyLenOf_toNat {n : Byte} (h : n = 16#8 ∨ n = 24#8 ∨ n = 32#8) : ∃ l, keyLenOf n.toNat = some l := by
  rcases h with rfl | rfl | rfl
  · exact ⟨.k16, rfl⟩
  · exact ⟨.k24, rfl⟩
  · exact ⟨.k32, rfl⟩

/-- R212: `INIT` with both lengths staged as `n`, a length with a round count. -/
theorem execInitWith_of_lengths {n : Byte} (he : s.err = 0x00#8) (hp : s.phase = .unconf)
    (hn : keyLenOf n.toNat = some l) (hk : s.klen = n) (hv : s.ivlen = n) :
    execInitWith cfg s = .next { s with nr := cfg.nr l, phase := .ready, rdata := none } :=
  execInitWith_of_legal he hp (hk ▸ hn) (hv.trans hk.symm)

/-- Settles O19: the cases of `INIT` at the round counts of `roundsFor`. -/
theorem initConstructsTheInstance : Obligations.InitConstructsTheInstance := by
  refine ⟨decode_encode (i := .init) rfl, fun s he => ⟨fun hp => ⟨fun hk => ?_, fun hk hv => ?_, ?_, ?_, ?_⟩,
    fun hp => ?_⟩⟩
  · exact execInitWith_of_illegal_klen he hp (keyLenOf_toNat_eq_none hk)
  · obtain ⟨l, hl⟩ := exists_keyLenOf_toNat hk
    exact execInitWith_of_ivlen_mismatch he hp hl hv
  · exact execInitWith_of_lengths (cfg := coreConfig) (l := .k16) he hp rfl
  · exact execInitWith_of_lengths (cfg := coreConfig) (l := .k24) he hp rfl
  · exact execInitWith_of_lengths (cfg := coreConfig) (l := .k32) he hp rfl
  · exact command_of_illegal he (by simpa using hp)

/-! ### DESTROY and CLRERR -/

/-- Settles O18: neither command looks at the phase or at `ERR`, so the two meanings are the two updates themselves. -/
theorem destroyWipesAndClrerrResumes : Obligations.DestroyWipesAndClrerrResumes :=
  ⟨decode_encode (i := .destroy) rfl, decode_encode (i := .clrerr) rfl, fun _ => rfl, fun _ => rfl⟩

/-! ### NOP and ABORT -/

/-- R211: `NOP` drives no `rdata` and does nothing else, whether or not an error is pending. -/
theorem execNop_eq_noAnswer (s : State) : execNop s = .next s.noAnswer := by
  by_cases he : s.err = 0x00#8
  · exact command_of_legal he (by cases s.phase <;> decide)
  · exact command_of_set he

/-- Settles O20: `ABORT` by the three cases of a command, legal in every phase but `UNCONF`. -/
theorem nopDoesNothingAndAbortDropsTheCall : Obligations.NopDoesNothingAndAbortDropsTheCall := by
  refine ⟨decode_encode (i := .nop) rfl, decode_encode (i := .abort) rfl, execNop_eq_noAnswer, fun s => ?_⟩
  rw [exec_abort, execAbort]
  refine ⟨fun he hp => ?_, fun he hp => ?_, fun he => command_of_set he⟩
  · have hlegal : s.phase ∈ [Phase.ready, .enc, .dec] := by cases h : s.phase <;> simp [h] at hp ⊢
    exact command_of_legal he hlegal
  · exact command_of_illegal he (by simp [hp])

end Sys2Proof.Machine

/-! PROOFS. Family 60_exceptions: the error action and its precision (R247), the cause of every error (R241, R244), and
the fail-stop (R249). -/

namespace Sys2Proof.Machine

variable {cfg : Config} {s t : State} {i c : Instr} {op : Byte} {e : Error} {info : Byte}

/-! ### No partial effect -/

/-- Settles O14: of everything a transaction can do with no error pending, only the two refusals leave one. -/
theorem aRefusedTransactionHasNoPartialEffect : Obligations.ARefusedTransactionHasNoPartialEffect := by
  refine ⟨fun _ _ _ => rfl, fun i s t he h ht => ?_⟩
  cases exec_effect h with
  | refusedWrite e info _ hw => exact ⟨rfl, (if_pos hw).symm⟩
  | refusedRead e info _ hr => exact ⟨rfl, (if_neg (by simp [hr])).symm⟩
  | destroyed | cleared => exact absurd rfl ht
  | decrypted =>
    obtain ⟨ob, olen, zseen, hd⟩ := decBlock_frame coreConfig _
    rw [hd] at ht
    exact absurd he ht
  | _ => exact absurd he ht

/-! ### Causes -/

/-- R241, the columns "raised by", "condition" and "`ERRINFO`": in the state `s` the transaction gives cause to the
error, with the byte recorded. -/
inductive Cause (s : State) : Instr → Error → Byte → Prop where
  | keylen (hk : keyLenOf s.klen.toNat = none) : Cause s .init .keylen s.klen
  | ivlen {l : KeyLen} (hk : keyLenOf s.klen.toNat = some l) (hv : s.ivlen ≠ s.klen) : Cause s .init .ivlen s.ivlen
  | inlen (hc : s.icnt ≠ 0) : Cause s .decFinal .inlen s.icntByte
  | illcmd {op : Byte} (hop : op ∉ commandOpcodes) : Cause s (.wr 0x00#8 op) .illcmd op
  | phase {i : Instr} {op : Byte} (hi : commandOf op = some i) (hp : s.phase ∉ legalPhases i) : Cause s i .phase op
  | readAccess {a : Byte} (hr : readReg (regAt a) s = none) : Cause s (.rd a) .access a
  | writeAccess {a d : Byte} (h0 : a ≠ 0x00#8) (hw : writeReg (regAt a) d s = none) : Cause s (.wr a d) .access a
  | pushAccess {d : Byte} (hp : s.phase = .unconf ∨ s.phase = .ready) : Cause s (.push d) .access 0x09#8
  | overrun {i : Instr} (hi : (∃ d, i = .push d) ∨ i = .encFinal ∨ i = .encStart ∨ i = .decStart) (ho : s.ocnt ≠ 0) :
      Cause s i .overrun s.ocntByte
  | underrun (ho : s.ocnt = 0) : Cause s .pop .underrun 0x00#8

/-- R241: after the transaction `i` in the state `s`, the state `t` shows no error or one that `i` gave cause to. -/
def ShowsItsCause (s : State) (i : Instr) (t : State) : Prop :=
  (t.err = 0x00#8 ∧ t.errinfo = 0x00#8) ∨ ∃ e info, Cause s i e info ∧ t.err = errorCode e ∧ t.errinfo = info

/-- R247: the error action with a cause. -/
theorem raise_showsItsCause (he : s.err = 0x00#8) (hc : Cause s i e info) :
    ShowsItsCause s i (s.noAnswer.raise e info) := by
  rw [State.noAnswer_raise he]
  exact .inr ⟨e, info, hc, rfl, rfl⟩

/-- R83, R244: the phase is tested before the command's own checks. -/
theorem command_showsItsCause {body : State → State} (he : s.err = 0x00#8) (hc : commandOf op = some c)
    (h : command op (legalPhases c) body s = .next t) (hb : ShowsItsCause s c (body s.noAnswer)) :
    ShowsItsCause s c t := by
  rcases command_cases h with ⟨hset, -⟩ | ⟨-, hp, rfl⟩ | ⟨-, -, rfl⟩
  · exact absurd he hset
  · exact .inr ⟨.phase, op, .phase hc hp, rfl, rfl⟩
  · exact hb

/-- R52: a plain write touches neither `ERR` nor `ERRINFO`. -/
theorem writeReg_err {r : Reg} {v : Byte} (h : writeReg r v s = some t) : t.err = s.err ∧ t.errinfo = s.errinfo := by
  rcases writeReg_cases h with ⟨-, -, rfl⟩ | ⟨-, -, rfl⟩ | ⟨_, -, -, rfl⟩ | ⟨_, -, -, rfl⟩ | ⟨_, -, -, rfl⟩ <;>
    exact ⟨rfl, rfl⟩

/-- R52: a plain write does not look at what is on the bus. -/
theorem writeReg_noAnswer (r : Reg) (v : Byte) (s : State) :
    writeReg r v s.noAnswer = (writeReg r v s).map State.noAnswer := by
  cases r <;> simp only [writeReg, apply_ite (Option.map State.noAnswer), Option.map_some, Option.map_none] <;> rfl

section
variable (he : s.err = 0x00#8) (hi : s.errinfo = 0x00#8)
include he hi

/-- R212, R244: `INIT` tests the key length before the IV length. -/
theorem initBody_showsItsCause : ShowsItsCause s .init (initBody cfg s.noAnswer) := by
  unfold initBody
  split
  next hk => exact raise_showsItsCause he (.keylen hk)
  next l hk =>
    split_ifs with hv
    · exact .inl ⟨he, hi⟩
    · exact raise_showsItsCause he (.ivlen hk hv)

/-- R172, R182: a start command tests for unread output. -/
theorem startCall_showsItsCause (p : Phase) (hc : c = .encStart ∨ c = .decStart) :
    ShowsItsCause s c (startCall cfg p s.noAnswer) := by
  unfold startCall
  split_ifs with ho
  · exact .inl ⟨he, hi⟩
  · exact raise_showsItsCause he (.overrun (.inr (.inr hc)) ho)

/-- R179: `ENC_FINAL` tests for unread output if it has a block to pad. -/
theorem encFinalBody_showsItsCause : ShowsItsCause s .encFinal (encFinalBody cfg s.noAnswer) := by
  unfold encFinalBody
  split_ifs with hc ho
  · exact .inl ⟨he, hi⟩
  · exact raise_showsItsCause he (.overrun (.inr (.inl rfl)) ho)
  · exact .inl ⟨he, hi⟩

/-- R186: `DEC_FINAL` tests for a part-filled block. -/
theorem decFinalBody_showsItsCause : ShowsItsCause s .decFinal (decFinalBody s.noAnswer) := by
  unfold decFinalBody
  split_ifs with hc
  · exact .inl ⟨he, hi⟩
  · exact raise_showsItsCause he (.inlen hc)

/-- R84: a command in its own term; all but five have no checks of their own and leave `ERR` alone or clear it. -/
theorem execWith_command_showsItsCause (hc : commandOf op = some c) (h : execWith cfg c s = .next t) :
    ShowsItsCause s c t := by
  obtain ⟨hpush, hpop, hwr, hrd⟩ := commandOf_ne_access hc
  obtain rfl := commandOf_opcode hc
  unfold execWith at h
  cases c with
  | push d => exact absurd rfl (hpush d)
  | pop => exact absurd rfl hpop
  | wr a d => exact absurd rfl (hwr a d)
  | rd a => exact absurd rfl (hrd a)
  | destroy | clrerr => cases h; exact .inl ⟨rfl, rfl⟩
  | init => exact command_showsItsCause he hc h (initBody_showsItsCause he hi)
  | encStart => exact command_showsItsCause he hc h (startCall_showsItsCause he hi .enc (.inl rfl))
  | decStart => exact command_showsItsCause he hc h (startCall_showsItsCause he hi .dec (.inr rfl))
  | encFinal => exact command_showsItsCause he hc h (encFinalBody_showsItsCause he hi)
  | decFinal => exact command_showsItsCause he hc h (decFinalBody_showsItsCause he hi)
  | _ => exact command_showsItsCause he hc h (.inl ⟨he, hi⟩)

/-- R176, R244: a `PUSH` tests the phase before it tests for unread output. -/
theorem execWith_push_showsItsCause {d : Byte} (h : execWith cfg (.push d) s = .next t) :
    ShowsItsCause s (.push d) t := by
  by_cases hp : s.phase = .unconf ∨ s.phase = .ready
  · cases h.symm.trans (pushPort_of_idle he hp)
    exact .inr ⟨.access, 0x09#8, .pushAccess hp, rfl, rfl⟩
  · have hcall : s.phase = .enc ∨ s.phase = .dec := by cases hs : s.phase <;> simp [hs] at hp ⊢
    cases h.symm.trans (execWith_push_of_call d he hcall)
    rcases pushInCall_cases (processBlock cfg) d s.noAnswer with ⟨-, ho, hr⟩ | ⟨-, -, hr⟩ | ⟨-, hr⟩ <;> rw [hr]
    · exact raise_showsItsCause he (.overrun (.inl ⟨d, rfl⟩) ho)
    · obtain ⟨ob, olen, zseen, hblock⟩ := processBlock_frame cfg _
      rw [hblock]
      exact .inl ⟨he, hi⟩
    · exact .inl ⟨he, hi⟩

/-- R188: a `POP` tests for unread output. -/
theorem popPort_showsItsCause (h : popPort s = .next t) : ShowsItsCause s .pop t := by
  rcases popPort_cases h with ⟨hset, -⟩ | ⟨-, ho, rfl⟩ | ⟨-, -, -, rfl⟩
  · exact absurd he hset
  · exact .inr ⟨.underrun, 0x00#8, .underrun ho, rfl, rfl⟩
  · exact .inl ⟨he, hi⟩

/-- R53: any other read raises `E_ACCESS` or nothing. -/
theorem execRd_showsItsCause {a : Byte} (ha : a ≠ 0x0A#8) (h : execRd a s = .next t) : ShowsItsCause s (.rd a) t := by
  cases hr : readReg (regAt a) s with
  | some v =>
    cases h.symm.trans (execRd_of_readReg hr)
    exact .inl ⟨he, hi⟩
  | none =>
    rw [execRd_of_readReg_none ha hr, if_pos he] at h
    cases h
    exact .inr ⟨.access, a, .readAccess hr, rfl, rfl⟩

/-- R54, R217: a write to `CMD` of no opcode raises `E_ILLCMD`, any other plain write `E_ACCESS` or nothing. -/
theorem execWrWith_showsItsCause {a d : Byte} (hw : (Instr.wr a d).wellFormed = true)
    (h : execWrWith cfg a d s = .next t) : ShowsItsCause s (.wr a d) t := by
  rcases execWrWith_cases cfg a d s with ⟨rfl, hr⟩ | ⟨rfl, -⟩ | ⟨h0, h9, hr⟩
  · have hop : d ∉ commandOpcodes := by simpa [Instr.wellFormed] using hw
    rw [hr, writeCmd_illegal_of_clear hop he] at h
    cases h
    exact .inr ⟨.illcmd, d, .illcmd hop, rfl, rfl⟩
  · exact absurd hw (by simp [Instr.wellFormed])
  · rw [hr] at h
    rcases writePlain_cases h with ⟨hset, -⟩ | ⟨-, hstore⟩ | ⟨-, hnone, rfl⟩
    · exact absurd he hset
    · obtain ⟨herr, hinfo⟩ := writeReg_err hstore
      exact .inl ⟨herr.trans he, hinfo.trans hi⟩
    · have hw : writeReg (regAt a) d s = none := by simpa [writeReg_noAnswer] using hnone
      exact .inr ⟨.access, a, .writeAccess h0 hw, rfl, rfl⟩

/-- R84: a command, whose opcode is the data byte of its own word. -/
theorem execWith_own_showsItsCause (hc : commandOf (encode i).wdata = some i) (h : execWith cfg i s = .next t) :
    ShowsItsCause s i t := execWith_command_showsItsCause he hi hc h

/-- R241, R244: every well-formed transaction, for any parameters. -/
theorem execWith_showsItsCause (hw : i.wellFormed = true) (h : execWith cfg i s = .next t) : ShowsItsCause s i t := by
  cases i with
  | push d => exact execWith_push_showsItsCause he hi h
  | pop => exact popPort_showsItsCause he hi h
  | wr a d => exact execWrWith_showsItsCause he hi hw h
  | rd a => exact execRd_showsItsCause he hi (by simpa [Instr.wellFormed] using hw) h
  | _ => exact execWith_own_showsItsCause he hi rfl h

end

/-- R8: a byte that is no key length is none of the three lengths. -/
theorem ne_of_keyLenOf_toNat_eq_none {n : Byte} (h : keyLenOf n.toNat = none) : n ≠ 16#8 ∧ n ≠ 24#8 ∧ n ≠ 32#8 := by
  obtain ⟨h16, h24, h32⟩ := keyLenOf_eq_none.mp h
  bv_omega

/-- R8: a byte that is a key length is one of the three lengths. -/
theorem eq_of_keyLenOf_toNat_eq_some {n : Byte} {l : KeyLen} (h : keyLenOf n.toNat = some l) :
    n = 16#8 ∨ n = 24#8 ∨ n = 32#8 := by
  have hn := keyLenOf_eq_some.mp h
  cases l <;> simp only [KeyLen.bytes] at hn <;> bv_omega

/-- R33: the count of input bytes fits its register. -/
theorem icntByte_toNat (s : State) : s.icntByte.toNat = s.icnt.val := by
  simp only [State.icntByte, BitVec.toNat_ofNat]
  omega

/-- Settles O15: each cause is one row of the table. -/
theorem everyErrorHasItsCauseAndCode : Obligations.EveryErrorHasItsCauseAndCode := by
  intro i s t hw he hi h
  rw [exec_eq_execWith] at h
  obtain hclear | ⟨e, info, hcause, hcode, hinfo⟩ := execWith_showsItsCause he hi hw h
  · exact .inl hclear
  refine .inr ?_
  cases hcause with
  | keylen hk => exact .inl ⟨hcode, rfl, ne_of_keyLenOf_toNat_eq_none hk, hinfo⟩
  | ivlen hk hv => exact .inr (.inl ⟨hcode, rfl, eq_of_keyLenOf_toNat_eq_some hk, hv, hinfo⟩)
  | inlen hc => exact .inr (.inr (.inl ⟨hcode, rfl, hc, hinfo ▸ icntByte_toNat s⟩))
  | illcmd hop => exact .inr (.inr (.inr (.inl ⟨hcode, _, rfl, hop, hinfo⟩)))
  | phase hi hp => exact .inr (.inr (.inr (.inr (.inl ⟨hcode, _, hi, hp, hinfo⟩))))
  | readAccess hr => exact .inr (.inr (.inr (.inr (.inr (.inl ⟨hcode, .inl ⟨_, rfl, hr, hinfo⟩⟩)))))
  | writeAccess h0 hnone =>
    exact .inr (.inr (.inr (.inr (.inr (.inl ⟨hcode, .inr (.inl ⟨_, _, rfl, h0, hnone, hinfo⟩)⟩)))))
  | pushAccess hp => exact .inr (.inr (.inr (.inr (.inr (.inl ⟨hcode, .inr (.inr ⟨_, rfl, hp, hinfo⟩)⟩)))))
  | overrun hi ho => exact .inr (.inr (.inr (.inr (.inr (.inr (.inl ⟨hcode, hi, ho, hinfo⟩))))))
  | underrun ho => exact .inr (.inr (.inr (.inr (.inr (.inr (.inr ⟨hcode, rfl, ho, hinfo⟩))))))

/-! ### Fail-stop -/

/-- R249: with an error pending a command is dropped, but for `CLRERR` and `DESTROY`. -/
theorem execWith_command_of_set (hc : commandOf op = some c) (hclrerr : c ≠ .clrerr) (hdestroy : c ≠ .destroy)
    (he : s.err ≠ 0x00#8) : execWith cfg c s = .next s.noAnswer := by
  obtain ⟨body, hbody⟩ := execWith_eq_command hc hclrerr hdestroy cfg
  rw [hbody]
  exact command_of_set he

/-- R249: the same for a command in its own term, whose opcode is the data byte of its word. -/
theorem execWith_own_of_set (hc : commandOf (encode c).wdata = some c) (hclrerr : c ≠ .clrerr)
    (hdestroy : c ≠ .destroy) (he : s.err ≠ 0x00#8) : execWith cfg c s = .next s.noAnswer :=
  execWith_command_of_set hc hclrerr hdestroy he

/-- R249: with an error pending every well-formed write is dropped, but for `CLRERR` and `DESTROY`. -/
theorem execWith_write_of_set (hw : i.wellFormed = true) (hwrite : i.isWrite = true) (hclrerr : i ≠ .clrerr)
    (hdestroy : i ≠ .destroy) (he : s.err ≠ 0x00#8) : execWith cfg i s = .next s.noAnswer := by
  cases i with
  | push d =>
    rw [execWith, execPushWith]
    exact guardedWrite_of_set he
  | pop => exact absurd hwrite (by simp [Instr.isWrite])
  | rd a => exact absurd hwrite (by simp [Instr.isWrite])
  | wr a d =>
    refine execWrWith_of_set he ?_
    rintro ⟨rfl, rfl | rfl⟩ <;> exact absurd hw (by decide)
  | clrerr => exact absurd rfl hclrerr
  | destroy => exact absurd rfl hdestroy
  | _ => exact execWith_own_of_set rfl (by simp) (by simp) he

/-- Settles O17: the writes by `execWith_write_of_set`, the reads by the read column of the map. -/
theorem failStopWhileAnErrorIsPending : Obligations.FailStopWhileAnErrorIsPending := by
  refine fun s he => ⟨fun i hw hwrite hclrerr hdestroy => ?_, rfl, rfl, if_pos he,
    fun a v _ hr => execRd_of_readReg hr, fun a ha hr => ?_⟩
  · rw [exec_eq_execWith]
    exact execWith_write_of_set hw hwrite hclrerr hdestroy he
  · rw [exec_rd, execRd_of_readReg_none ha hr, if_neg he]

end Sys2Proof.Machine

/-! PROOFS. Family 70_reset_and_hazards: completion of every transaction and step (R280), the bring-up sequence (R273),
and the recovery from an overrun (R272, R250). -/

namespace Sys2Proof.Machine

variable {cfg : Config} {s t u : State} {i : Instr}

/-! ### Completion -/

/-- R20: nothing a transaction can do touches the host's later events. -/
theorem Effect.keeps_pending (h : Effect cfg s i t) : t.pending = s.pending := by
  cases h with
  | decrypted v =>
    obtain ⟨ob, olen, zseen, hframe⟩ := decBlock_frame cfg { s with ib := s.ib.set s.icnt v, icnt := 0, rdata := none }
    rw [hframe]
  | _ => rfl

/-- R280, R86: every transaction completes, for any parameters, and leaves the host's later events alone. -/
theorem execWith_completes (cfg : Config) (i : Instr) (s : State) :
    ∃ t, execWith cfg i s = .next t ∧ t.pending = s.pending := by
  obtain ⟨t, ht⟩ := execWith_answers cfg i s
  exact ⟨t, ht, (execWith_effect ht).keeps_pending⟩

/-- R280: every step completes, for any parameters: without an event, at the reset input and at a transaction. -/
theorem stepWith_completes (cfg : Config) (s : State) : ∃ t, stepWith cfg s = .next t := by
  unfold stepWith
  cases hp : s.pending with
  | nil => exact ⟨_, answerEvent_of_nil _ hp⟩
  | cons e rest =>
    cases e with
    | reset => exact ⟨_, answerEvent_of_reset _ hp⟩
    | bus w =>
      rw [answerEvent_of_bus _ hp]
      exact execWith_answers cfg (decode w) _

/-- Settles O8: the machine at the spec's parameters is an instance of the one for any parameters. -/
theorem everyTransactionCompletes : Obligations.EveryTransactionCompletes := by
  refine ⟨fun i s => ?_, fun s => ?_, execWith_completes, stepWith_completes, exec_eq_execWith, step_eq_stepWith⟩
  · rw [exec_eq_execWith]
    exact execWith_completes coreConfig i s
  · rw [step_eq_stepWith]
    exact stepWith_completes coreConfig s

/-! ### Bring-up -/

/-- R62: a silent script followed by one more transaction that returns no byte. -/
theorem transactAll_snoc_of_silent {a : List Instr} (ha : transactAll cfg a s = some (t, []))
    (hi : execWith cfg i t = .next u) (hu : u.rdata = none) : transactAll cfg (a ++ [i]) s = some (u, []) := by
  rw [transactAll_append_of_silent ha]
  simp [transactAll, transact_of_next hi, hu]

/-- R58: a byte stored in a buffer follows the bytes before its place. -/
theorem take_set_succ {n : Nat} (b : Vector Byte n) (j : Fin n) (v : Byte) :
    (b.set j v).toList.take (j.val + 1) = b.toList.take j.val ++ [v] := by
  have hlt : j.val < (b.toList.set j.val v).length := by simp
  rw [Vector.toList_set j.isLt, List.take_succ_eq_append_getElem hlt, List.take_set_of_le le_rfl,
    List.getElem_set_self]

/-- R58, R89: writes at consecutive addresses, where `stage b` is the state in which the buffer behind those addresses
holds `b` and a write there sets one byte of it: they stage the whole list and return nothing. -/
theorem transactAll_writesFrom {base : Nat} {stage : Buf32 → State} (hsilent : ∀ b, (stage b).rdata = none)
    (hwrite : ∀ (b : Buf32) (j : Fin 32) (v : Byte),
      execWith cfg (.wr (BitVec.ofNat 8 (base + j.val)) v) (stage b) = .next (stage (b.set j v)))
    (b : Buf32) (bytes : List Byte) : bytes.length ≤ 32 →
    ∃ b' : Buf32, transactAll cfg (writesFrom base bytes) (stage b) = some (stage b', []) ∧
      b'.toList.take bytes.length = bytes := by
  induction bytes using List.reverseRecOn with
  | nil => exact fun _ => ⟨b, rfl, rfl⟩
  | append_singleton bytes v ih =>
    intro hlen
    have hlt : bytes.length < 32 := by simpa using hlen
    obtain ⟨b', hrun, hbytes⟩ := ih hlt.le
    have hsnoc : writesFrom base (bytes ++ [v]) =
        writesFrom base bytes ++ [.wr (BitVec.ofNat 8 (base + bytes.length)) v] := by simp [writesFrom]
    refine ⟨b'.set bytes.length v, ?_, ?_⟩
    · rw [hsnoc]
      exact transactAll_snoc_of_silent hrun (hwrite b' ⟨bytes.length, hlt⟩ v) (hsilent _)
    · rw [List.length_append, List.length_singleton, take_set_succ b' ⟨bytes.length, hlt⟩ v, hbytes]

/-- R26, R52: without an instance a write of a key byte stores it. -/
theorem execWith_wr_key (he : s.err = 0x00#8) (hp : s.phase = .unconf) (j : Fin 32) (v : Byte) :
    execWith cfg (.wr (BitVec.ofNat 8 (0x40 + j.val)) v) s = .next { s with key := s.key.set j v, rdata := none } :=
  execWrWith_of_writeReg he (by rw [regAt_key]; exact if_pos hp)

/-- R27, R52: without an instance a write of an IV byte stores it. -/
theorem execWith_wr_iv (he : s.err = 0x00#8) (hp : s.phase = .unconf) (j : Fin 32) (v : Byte) :
    execWith cfg (.wr (BitVec.ofNat 8 (0x60 + j.val)) v) s = .next { s with iv := s.iv.set j v, rdata := none } :=
  execWrWith_of_writeReg he (by rw [regAt_iv]; exact if_pos hp)

/-- R25, R52: without an instance a write of `KLEN` stores it. -/
theorem execWith_wr_klen (he : s.err = 0x00#8) (hp : s.phase = .unconf) (n : Byte) :
    execWith cfg (.wr 0x04#8 n) s = .next { s with klen := n, rdata := none } := by
  rw [execWith]
  exact execWrWith_of_writeReg he (by rw [regAt_eq_klen.mpr rfl]; exact if_pos hp)

/-- R25, R52: without an instance a write of `IVLEN` stores it. -/
theorem execWith_wr_ivlen (he : s.err = 0x00#8) (hp : s.phase = .unconf) (n : Byte) :
    execWith cfg (.wr 0x05#8 n) s = .next { s with ivlen := n, rdata := none } := by
  rw [execWith]
  exact execWrWith_of_writeReg he (by rw [regAt_eq_ivlen.mpr rfl]; exact if_pos hp)

/-- R89: `LOADKEY` without an instance and with no error pending stages the key and its length. -/
theorem transactAll_loadKey (he : s.err = 0x00#8) (hp : s.phase = .unconf) {bytes : List Byte}
    (hlen : bytes.length ≤ 32) :
    ∃ key : Buf32, transactAll cfg (loadKey bytes) s.noAnswer =
      some ({ s with key := key, klen := BitVec.ofNat 8 bytes.length, rdata := none }, []) ∧
      key.toList.take bytes.length = bytes := by
  obtain ⟨key, hrun, hbytes⟩ := transactAll_writesFrom (cfg := cfg) (base := 0x40)
    (stage := fun b => { s with key := b, rdata := none }) (fun _ => rfl)
    (fun b j v => execWith_wr_key (s := { s with key := b, rdata := none }) he hp j v) s.key bytes hlen
  have hlength := execWith_wr_klen (cfg := cfg) (s := { s with key := key, rdata := none }) he hp
    (BitVec.ofNat 8 bytes.length)
  exact ⟨key, transactAll_snoc_of_silent hrun hlength rfl, hbytes⟩

/-- R89: `LOADIV` without an instance and with no error pending stages the IV and its length. -/
theorem transactAll_loadIv (he : s.err = 0x00#8) (hp : s.phase = .unconf) {bytes : List Byte}
    (hlen : bytes.length ≤ 32) :
    ∃ iv : Buf32, transactAll cfg (loadIv bytes) s.noAnswer =
      some ({ s with iv := iv, ivlen := BitVec.ofNat 8 bytes.length, rdata := none }, []) ∧
      iv.toList.take bytes.length = bytes := by
  obtain ⟨iv, hrun, hbytes⟩ := transactAll_writesFrom (cfg := cfg) (base := 0x60)
    (stage := fun b => { s with iv := b, rdata := none }) (fun _ => rfl)
    (fun b j v => execWith_wr_iv (s := { s with iv := b, rdata := none }) he hp j v) s.iv bytes hlen
  have hlength := execWith_wr_ivlen (cfg := cfg) (s := { s with iv := iv, rdata := none }) he hp
    (BitVec.ofNat 8 bytes.length)
  exact ⟨iv, transactAll_snoc_of_silent hrun hlength rfl, hbytes⟩

/-- R8: a legal length fits the staging buffers. -/
theorem keyLen_bytes_le (l : KeyLen) : l.bytes ≤ 32 := by cases l <;> decide

/-- R25: a length that fits the staging buffers is the value of its byte. -/
theorem toNat_ofNat_of_le {n : Nat} (h : n ≤ 32) : (BitVec.ofNat 8 n).toNat = n := by
  rw [BitVec.toNat_ofNat, Nat.mod_eq_of_lt (by omega)]

/-- R273: `SETUP` without an instance and with no error pending ends in `READY` with the key and the IV staged; it
changes nothing else but their lengths and the round count. -/
theorem transactAll_setup (he : s.err = 0x00#8) (hp : s.phase = .unconf) {l : KeyLen} {key iv : List Byte}
    (hkey : key.length = l.bytes) (hiv : iv.length = key.length) :
    ∃ kb ib : Buf32, kb.toList.take key.length = key ∧ ib.toList.take iv.length = iv ∧
      transactAll cfg (setup key iv) s.noAnswer =
        some ({ s with key := kb, iv := ib, klen := BitVec.ofNat 8 key.length, ivlen := BitVec.ofNat 8 iv.length,
                       nr := cfg.nr l, phase := .ready, rdata := none }, []) := by
  have hmax : key.length ≤ 32 := hkey ▸ keyLen_bytes_le l
  have hlegal : keyLenOf (BitVec.ofNat 8 key.length).toNat = some l :=
    keyLenOf_eq_some.mpr ((toNat_ofNat_of_le hmax).trans hkey)
  obtain ⟨kb, hkrun, hkb⟩ := transactAll_loadKey (cfg := cfg) he hp hmax
  obtain ⟨ib, hirun, hib⟩ := transactAll_loadIv (cfg := cfg) (bytes := iv)
    (s := { s with key := kb, klen := BitVec.ofNat 8 key.length, rdata := none }) he hp (by omega)
  refine ⟨kb, ib, hkb, hib, transactAll_snoc_of_silent ((transactAll_append_of_silent hkrun _).trans hirun) ?_ rfl⟩
  exact execInitWith_of_lengths he hp hlegal rfl (by rw [hiv])

/-- Settles O22: the staged bytes are those given, so the instance is the one of `construct`. -/
theorem bringUpBuildsTheInstance : Obligations.BringUpBuildsTheInstance := by
  intro cfg key iv l hkey hiv
  have hmax : key.length ≤ 32 := hkey ▸ keyLen_bytes_le l
  obtain ⟨kb, ib, hkb, hib, hrun⟩ := transactAll_setup (cfg := cfg) (s := State.reset) rfl rfl hkey hiv
  refine ⟨_, hrun, rfl, rfl, ?_, rfl, rfl⟩
  rw [construct_of_legal (keyLenOf_eq_some.mpr hkey) hiv, State.inst, State.km, State.ivm]
  simp only [toNat_ofNat_of_le hmax, toNat_ofNat_of_le (hiv.trans_le hmax), hkb, hib]

/-! ### Recovery from an overrun -/

/-- R176, R247: the `PUSH` that would complete a block is refused while output is unread. -/
theorem execWith_push_of_unread (v : Byte) (he : s.err = 0x00#8) (hp : s.phase = .enc ∨ s.phase = .dec)
    (hc : s.icnt = 15) (ho : s.ocnt ≠ 0) :
    execWith cfg (.push v) s = .next { s with err := 0x13#8, errinfo := s.ocntByte, rdata := none } := by
  rw [execWith_push_of_call v he hp, pushInCall_of_unread _ he hc ho]

/-- R250: `CLRERR` takes back the record of a refused write. -/
theorem execWith_clrerr_of_refused (he : s.err = 0x00#8) (code info : Byte) :
    execWith cfg .clrerr { s with err := code, errinfo := info, rdata := none } =
      .next { s with errinfo := 0x00#8, rdata := none } := by
  rw [he]
  rfl

/-- R176, R177, R187: a completed block keeps `ERR`, empties the input block and advances `F`, in either call. -/
theorem processBlock_storeByte_fields (cfg : Config) (s : State) (v : Byte) :
    (processBlock cfg (s.storeByte v 0)).err = s.err ∧ (processBlock cfg (s.storeByte v 0)).icnt = 0 ∧
      (processBlock cfg (s.storeByte v 0)).fReg = s.nextKeystream cfg := by
  obtain ⟨ob, olen, zseen, hframe⟩ := processBlock_frame cfg (s.storeByte v 0)
  rw [hframe]
  exact ⟨rfl, rfl, rfl⟩

/-- Settles O54: the refusal, `CLRERR` and the `DRAIN` change no more than `ERRINFO`, `ORD` and the bus, so the same
`PUSH` then completes the block. -/
theorem anOverrunIsRecoverable : Obligations.AnOverrunIsRecoverable := by
  intro cfg s v he hp hc hl
  have ho : s.ocnt ≠ 0 := fun h => absurd (ocnt_eq_zero_iff.mp h) (Nat.not_le.mpr hl)
  obtain ⟨r, hdrain⟩ := drain_spec (cfg := cfg) (s := { s with errinfo := 0x00#8, rdata := none }) he hl.le
  obtain ⟨herr, hicnt, hf⟩ :=
    processBlock_storeByte_fields cfg { s with errinfo := 0x00#8, ord := s.olen, rdata := r } v
  exact ⟨_, _, _, _, execWith_push_of_unread v he hp hc ho, rfl, rfl, rfl, execWith_clrerr_of_refused he _ _, hdrain,
    rfl, Nat.sub_self _, execWith_push_of_full v he hp hc (Nat.sub_self _), herr.trans he, hicnt, hf⟩

end Sys2Proof.Machine
